-- ==== Sys2Proof/Word.lean ====
section
/-! DEFINITION. The word types of the PZ816: bytes, 16-bit sequence numbers, 32-bit times, epochs and counters, and the index types of its tables. -/

namespace Sys2Proof

/-- A byte of a field frame or a trunk frame. -/
abbrev Byte := BitVec 8

/-- A 32-bit quantity: device time, station timestamp, epoch or counter. -/
abbrev Word := BitVec 32

/-- A 16-bit bundle sequence number (R1). -/
abbrev SeqNo := BitVec 16

/-- A 24-bit station id. -/
abbrev Station := BitVec 24

/-- A 16-bit channel tag. -/
abbrev Tag := BitVec 16

/-- A field port, 0–7. -/
abbrev PortId := Fin 8

/-- A delivery lane, 0–15. -/
abbrev LaneId := Fin 16

/-- A delivery class, 0–7. -/
abbrev ClassId := Fin 8

/-- The index of a rule in its list, 0–63. -/
abbrev RuleIndex := Fin 64

/-- The index of a spread entry, 0–63. -/
abbrev SpreadIndex := Fin 64

/-- A stream number: 4 times the bucket plus the slot, 0–2047 (R28). -/
abbrev StreamNo := Fin 2048

/-- The number of a notice source, 0–43 (R186). -/
abbrev SourceNo := Fin 44

end Sys2Proof
end

