-- ==== Sys2Proof/Config.lean ====
section
/-! DEFINITION. The sizes and limits that the spec fixes for every PZ816. The one free value of the model is declared beside State, in Machine/State.lean. -/

namespace Sys2Proof.Config

/-- The size of an ingress FIFO in bytes (R10, R11). -/
@[simp] def fifoBytes : Nat := 4096

/-- The FIFO-high flag is set at this fill or more (R20). -/
@[simp] def fifoHighMark : Nat := 3072

/-- The FIFO-high flag is cleared at this fill or less (R20). -/
@[simp] def fifoLowMark : Nat := 1024

/-- The shortest total length of a field frame (R13). -/
@[simp] def frameMinBytes : Nat := 11

/-- The longest total length of a field frame (R12, R13). -/
@[simp] def frameMaxBytes : Nat := 1024

/-- The consecutive-bad count that puts a port in FAULT (R18). -/
@[simp] def badFrameLimit : Nat := 16

/-- The most records a field frame may announce (R49). -/
@[simp] def recordsPerFrame : Nat := 32

/-- The longest value of a record (R49). -/
@[simp] def valueMaxBytes : Nat := 64

/-- The number of cells of the bundle store (R74). -/
@[simp] def cellCount : Nat := 4096

/-- The size of a cell in bytes (R75). -/
@[simp] def cellBytes : Nat := 64

/-- The size of a bundle header in bytes (R91). -/
@[simp] def headerBytes : Nat := 16

/-- The bundles a ready queue holds (R104). -/
@[simp] def readyPlaces : Nat := 32

/-- The commands the command queue holds (R170). -/
@[simp] def commandPlaces : Nat := 8

/-- The responses the response queue holds (R157). -/
@[simp] def responsePlaces : Nat := 8

/-- The notices the notice queue holds (R191). -/
@[simp] def noticePlaces : Nat := 32

/-- The notices of one notice frame (R193). -/
@[simp] def batchNotices : Nat := 8

/-- The longest inbound trunk frame the receiver keeps (R151). -/
@[simp] def inboundMaxBytes : Nat := 269

/-- The shortest low level of RESET_N, in microseconds (10.6). -/
@[simp] def resetLowMicros : Nat := 10

end Sys2Proof.Config
end

