-- ==== Sys2Proof/Syntax.lean ====
section
/-! DEFINITION. The commands of the block: one constructor for each row of spec/opcode_table.json. A row whose subject stands in State (the head of the command queue, the record in progress, an update in flight) takes no operand. -/

namespace Sys2Proof

/-- The events of the PZ816, each taken whole. -/
inductive Instr where
  /-- RESET_N goes low (R206). -/
  | powerOnReset
  /-- The rising edge of RESET_N: the levels at UNIT7–UNIT0, and how many microseconds RESET_N was low (R206, 10.6). -/
  | resetRelease (straps : Byte) (lowMicros : Nat)
  /-- The line of a field port gains signal (R4). -/
  | lineSignalGained (port : Nat)
  /-- The line of a field port loses signal (R4). -/
  | lineSignalLost (port : Nat)
  /-- A start delimiter arrives on a field line (R9). -/
  | fieldStartDelimiter (port : Nat)
  /-- A byte arrives on a field line (R10, R11, R12). -/
  | fieldByteArrival (port : Nat) (byte : Byte)
  /-- An end delimiter arrives on a field line (R13). -/
  | fieldEndDelimiter (port : Nat)
  /-- The Classifier takes a frame (R48, R49). -/
  | frameTake
  /-- The lookup request of the record in progress (R33, R51). -/
  | lookup
  /-- The rule search of the record in progress (R52, R53). -/
  | ruleSearch
  /-- The learn insert of the record in progress (R35, R54). -/
  | learnInsert
  /-- The lane resolution of the record in progress (R58, R59). -/
  | laneResolution
  /-- The placement of the record in progress (R93). -/
  | placement
  /-- The LDU of a lane takes the bundle its Assembler offers (R104). -/
  | handoff (lane : Nat)
  /-- The update of the record in progress (R34, R61). -/
  | streamUpdate
  /-- The idle timer's expiry of a lane is taken (R101). -/
  | idleTimerExpiry (lane : Nat)
  /-- The age timer's expiry of a lane is taken (R102). -/
  | ageTimerExpiry (lane : Nat)
  /-- PORT_SET begins execution (R6). -/
  | portSet
  /-- STREAM_WRITE begins execution (R38). -/
  | streamWrite
  /-- STREAM_DELETE begins execution (R42). -/
  | streamDelete
  /-- STREAM_READ begins execution (R43). -/
  | streamRead
  /-- RULE_STAGE begins execution (R64). -/
  | ruleStage
  /-- RULE_APPLY begins execution (R65). -/
  | ruleApply
  /-- RULE_READ begins execution (R66). -/
  | ruleRead
  /-- CLASS_WRITE begins execution (R68). -/
  | classWrite
  /-- SPREAD_WRITE begins execution (R69). -/
  | spreadWrite
  /-- MAP_READ begins execution (R70). -/
  | mapRead
  /-- POOL_SET begins execution (R82). -/
  | poolSet
  /-- LANE_FLUSH begins execution (R106). -/
  | laneFlush
  /-- LANE_CONFIG begins execution (R136). -/
  | laneConfig
  /-- LANE_START begins execution (R137). -/
  | laneStart
  /-- LANE_STOP begins execution (R138). -/
  | laneStop
  /-- LANE_RESET begins execution (R139). -/
  | laneReset
  /-- The oldest lane update in flight is taken at its LDU (R118). -/
  | laneUpdate
  /-- The arbiter's send start request is taken at its LDU (R125). -/
  | sendStart
  /-- The retransmit timer's expiry of a lane is taken (R131). -/
  | retransmitTimerExpiry (lane : Nat)
  /-- The trunk receiver gains lock (R148). -/
  | linkUp
  /-- The trunk receiver loses lock (R149). -/
  | linkDown
  /-- A start delimiter arrives on the inbound trunk (R151). -/
  | trunkStartDelimiter
  /-- An abort delimiter arrives on the inbound trunk (R151). -/
  | trunkAbortDelimiter
  /-- An end delimiter arrives on the inbound trunk (R152). -/
  | trunkEndDelimiter
  /-- The oldest command arrival in flight is taken at the MU (R170). -/
  | commandArrival
  /-- The command in execution places its response (R176). -/
  | commandEnd
  /-- The arbiter's batch request is taken at the Notice Unit (R193). -/
  | noticeBatchRequest
  /-- A response or notice frame ends with its end delimiter (R156). -/
  | outboundFrameEnd
  /-- A bundle frame in mode SENDING ends with its end delimiter (R160). -/
  | bundleFrameEnd
  /-- A cut frame ends with its abort delimiter (R162). -/
  | cutFrameEnd
  /-- OPEN_SESSION begins execution (R168). -/
  | openSession
  /-- CLOSE_SESSION begins execution (R169). -/
  | closeSession
  /-- READ_STATUS begins execution (R178). -/
  | readStatus
  /-- DATAPATH_RESET begins execution: phase 1 and the request of phase 2 (R179, R180). -/
  | datapathReset
  /-- Phase 3 of DATAPATH_RESET begins (R163, R180). -/
  | resetPhase3
  /-- Phases 4 to 7 of DATAPATH_RESET (R181). -/
  | resetPhase4
  /-- NOTICE_REARM begins execution (R192). -/
  | noticeRearm
  /-- READ_COUNTERS begins execution (R196). -/
  | readCounters
  /-- A byte arrives on the inbound trunk (R151). -/
  | trunkByteArrival (byte : Byte)
  /-- A command whose code is not in the command index begins execution (R174). -/
  | unknownCommandCode
  deriving DecidableEq, Repr, Inhabited

end Sys2Proof
end

