-- ==== Sys2Proof/WellFormed.lean ====
section
/-! DEFINITION. Which commands name a line or a lane that exists: ports 0–7 (chapter 1) and lanes 0–15 (chapter 5). -/

namespace Sys2Proof

/-- A command is well formed when the field port it names is one of the eight and the lane it names is one of the sixteen. -/
def Instr.wellFormed : Instr → Bool
  | .lineSignalGained p | .lineSignalLost p | .fieldStartDelimiter p | .fieldByteArrival p _ | .fieldEndDelimiter p => decide (p < 8)
  | .handoff l | .idleTimerExpiry l | .ageTimerExpiry l | .retransmitTimerExpiry l => decide (l < 16)
  | .powerOnReset | .resetRelease _ _ | .frameTake | .lookup | .ruleSearch | .learnInsert | .laneResolution | .placement
  | .streamUpdate | .portSet | .streamWrite | .streamDelete | .streamRead | .ruleStage | .ruleApply | .ruleRead
  | .classWrite | .spreadWrite | .mapRead | .poolSet | .laneFlush | .laneConfig | .laneStart | .laneStop | .laneReset
  | .laneUpdate | .sendStart | .linkUp | .linkDown | .trunkStartDelimiter | .trunkAbortDelimiter | .trunkEndDelimiter
  | .commandArrival | .commandEnd | .noticeBatchRequest | .outboundFrameEnd | .bundleFrameEnd | .cutFrameEnd
  | .openSession | .closeSession | .readStatus | .datapathReset | .resetPhase3 | .resetPhase4 | .noticeRearm
  | .readCounters | .trunkByteArrival _ | .unknownCommandCode => true

end Sys2Proof
end

