-- ==== Sys2Proof/Machine/Flags.lean ====
section
/-! DEFINITION. The comparisons and checks that every block shares: modular comparison (R1), saturating counters (R2) and the frame check (R14). -/

namespace Sys2Proof.Machine

/-- The distance from a to b: (b − a) modulo 2^n (R1). -/
def distance {n : Nat} (a b : BitVec n) : Nat := (b - a).toNat

/-- b is newer than a (R1): the distance from a to b is nonzero and below 2^(n−1). -/
def isNewer {n : Nat} (b a : BitVec n) : Bool := decide (0 < distance a b) && decide (distance a b < 2 ^ (n - 1))

/-- b is older than a (R1): a is newer than b. -/
def isOlder {n : Nat} (b a : BitVec n) : Bool := isNewer a b

/-- A saturating counter takes an addition (R2, R195): it stops at its largest value. -/
def satAdd {n : Nat} (c : BitVec n) (k : Nat) : BitVec n := BitVec.ofNat n (min (c.toNat + k) (2 ^ n - 1))

/-- A saturating counter adds one (R2). -/
def satInc {n : Nat} (c : BitVec n) : BitVec n := satAdd c 1

/-- One bit of the check register: shift left, and add the generator polynomial 04C11DB7h when a one leaves (R14). -/
def checkShift (reg : Word) : Word := if reg.msb then (reg <<< 1) ^^^ 0x04C11DB7#32 else reg <<< 1

/-- One byte enters the check register, most significant bit first (R14). -/
def checkByte (reg : Word) (b : Byte) : Word :=
  let r := reg ^^^ (b.setWidth 32 <<< 24)
  checkShift (checkShift (checkShift (checkShift (checkShift (checkShift (checkShift (checkShift r)))))))

/-- The frame check of a byte sequence (R14): the register starts at all ones and the final register is complemented. -/
def frameCheck (bytes : List Byte) : Word := ~~~ (bytes.foldl checkByte 0xFFFFFFFF#32)

end Sys2Proof.Machine
end

