-- ==== Sys2Proof/Machine/State.lean ====
section
/-! DEFINITION. The state of the PZ816 as plain data, block by block, and the machine right after reset. -/

namespace Sys2Proof.Machine

/-- Why the block stops. No state and no data of the PZ816 stops it: both reasons are about an operand that names what does not exist. -/
inductive Fault where
  /-- Raised by the five field line commands for a port above 7: the part has field ports 0–7 (chapter 1). Safe: the model stops where the hardware has no line. -/
  | noSuchPort
  /-- Raised by HANDOFF and the three timer expiries for a lane above 15: the part has lanes 0–15 (chapter 5). Safe: the model stops where the hardware has no lane. -/
  | noSuchLane
  deriving DecidableEq, Repr, Inhabited

/-- Why a command has no meaning. -/
inductive Refusal where
  /-- Raised by a refused arm of exec alone; no arm is refused. Safe. -/
  | notModelled (mnemonic : String)
  deriving DecidableEq, Repr, Inhabited

/-! ## Field Port Receiver (chapter 1) -/

/-- The four port states (1.1). -/
inductive PortState where
  | disabled | down | up | fault
  deriving DecidableEq, Repr, Inhabited

/-- The frame in reception (R9). `accept`, `tooLong` and `spent` are ACCEPT frames: storing its bytes, marked too long (R12), and spent (R9, R11). `discard` and `reset` are the DISCARD and RESET modes. -/
inductive Reception where
  | accept (bytes : List Byte)
  | tooLong
  | spent
  | discard
  | reset
  deriving DecidableEq, Repr, Inhabited

/-- The twelve counters of group PORT p (R24), in the order of 9.7. -/
structure PortCounters where
  framesOk : Word := 0
  checkErrors : Word := 0
  lengthErrors : Word := 0
  unknownKind : Word := 0
  overflows : Word := 0
  truncated : Word := 0
  disabledDiscards : Word := 0
  malformed : Word := 0
  recordsSeen : Word := 0
  noMatch : Word := 0
  ruleDrops : Word := 0
  resetDiscards : Word := 0
  deriving DecidableEq, Repr, Inhabited

/-- What one FPR holds (R5, R10). The ingress FIFO is the taken frame, then the complete frames, then the ACCEPT frame in reception; the taken frame is always the oldest (R17). -/
structure Port where
  state : PortState := .disabled
  signal : Bool := false
  taken : Option (List Byte) := none
  complete : List (List Byte) := []
  reception : Option Reception := none
  fifoHigh : Bool := false
  badCount : Nat := 0
  resetMark : Bool := false
  counters : PortCounters := {}
  deriving DecidableEq, Repr, Inhabited

/-! ## Stream Table (chapter 2) -/

/-- The key of a record: field port, station id, channel tag (2.1). -/
structure Key where
  port : PortId
  station : Station
  tag : Tag
  deriving DecidableEq, Repr, Inhabited

/-- The three stale policies (R29, R56). -/
inductive StalePolicy where
  | keep | dropOlder | dropNotNewer
  deriving DecidableEq, Repr, Inhabited

/-- A stream entry: configuration (R29), dynamic state (R30) and counters (R32). -/
structure StreamEntry where
  key : Key
  cls : ClassId
  decimation : Option Nat
  stale : StalePolicy
  urgent : Bool
  learned : Bool
  lastTimestamp : Option Word := none
  decimationCount : Nat := 0
  accepted : Word := 0
  dropped : Word := 0
  thinned : Word := 0
  deriving DecidableEq, Repr, Inhabited

/-- A slot: its generation (R31) and the entry it holds, or free (R28). -/
structure Slot where
  generation : BitVec 16 := 0
  entry : Option StreamEntry := none
  deriving DecidableEq, Repr, Inhabited

/-- The Stream Table: 2048 slots, slot n being the slot of stream number n (R28), and its two device counters (R36). -/
structure StreamTable where
  slots : Vector Slot 2048 := Vector.replicate 2048 {}
  learned : Word := 0
  learnFailed : Word := 0
  deriving DecidableEq, Repr, Inhabited

/-! ## Record Classifier, Rule Set, Class Table and Spread Table (chapter 3) -/

/-- One record of a field frame (R200). -/
structure FieldRecord where
  tag : Tag
  timestamp : Word
  value : List Byte
  deriving DecidableEq, Repr, Inhabited

/-- The snapshot a hit carries (R33). -/
structure Snapshot where
  stream : StreamNo
  generation : BitVec 16
  cls : ClassId
  stale : StalePolicy
  urgent : Bool
  decimation : Nat
  lastTimestamp : Option Word
  decimationCount : Nat
  deriving DecidableEq, Repr, Inhabited

/-- How a record reaches lane resolution: as a hit, with its snapshot and the two new values its update will carry (R56, R57), or unbound, with the index and class of its rule (R55). -/
inductive Route where
  | bound (snap : Snapshot) (newTimestamp : Word) (newCount : Nat)
  | unbound (rule : RuleIndex) (cls : ClassId)
  deriving DecidableEq, Repr, Inhabited

/-- The outcome an update names (R34, R61). -/
inductive UpdateOutcome where
  | accepted | thinned | dropped
  deriving DecidableEq, Repr, Inhabited

/-- An update request (R34). -/
structure UpdateRequest where
  stream : StreamNo
  generation : BitVec 16
  outcome : UpdateOutcome
  newTimestamp : Option Word
  newCount : Option Nat
  deriving DecidableEq, Repr, Inhabited

/-- The stage the record in progress has reached, with the values gathered so far (R47, 3.2). -/
inductive Stage where
  | lookup
  | ruleSearch
  | learn (rule : RuleIndex) (cls : ClassId) (stale : StalePolicy)
  | resolve (route : Route)
  | place (route : Route) (lane : LaneId)
  | update (request : UpdateRequest)
  deriving DecidableEq, Repr, Inhabited

/-- The frame in progress and, in it, the record in progress (R47). -/
structure FrameInProgress where
  port : PortId
  station : Station
  records : List FieldRecord
  index : Nat := 0
  stage : Stage := .lookup
  deriving DecidableEq, Repr, Inhabited

/-- The Record Classifier (R47); it is WORKING while it has a frame in progress and IDLE otherwise. -/
structure Classifier where
  position : PortId := 0
  frame : Option FrameInProgress := none
  abandon : Bool := false
  staleDrops : Word := 0
  duplicateDrops : Word := 0
  thinned : Word := 0
  classUnsetDrops : Word := 0
  noLaneDrops : Word := 0
  deriving DecidableEq, Repr, Inhabited

/-- The action of a rule (R63). -/
inductive Action where
  | place | drop
  deriving DecidableEq, Repr, Inhabited

/-- A rule entry (R63); the defaults are the empty form. -/
structure Rule where
  valid : Bool := false
  portSet : Byte := 0
  stationValue : Station := 0
  stationMask : Station := 0
  tagValue : Tag := 0
  tagMask : Tag := 0
  action : Action := .drop
  cls : ClassId := 0
  learn : Bool := false
  stale : StalePolicy := .keep
  deriving DecidableEq, Repr, Inhabited

/-- The Rule Set (R63). -/
structure RuleSet where
  active : Vector Rule 64 := Vector.replicate 64 {}
  staged : Vector Rule 64 := Vector.replicate 64 {}
  version : BitVec 16 := 0
  deriving DecidableEq, Repr, Inhabited

/-- A class record (R67). -/
inductive ClassRecord where
  | unset
  | fixed (lane : LaneId)
  | spread (base size : Nat)
  deriving DecidableEq, Repr, Inhabited

/-- The Class Table and the Spread Table with its salt (R67); a spread entry that is `none` is UNSET. -/
structure ClassMap where
  classes : Vector ClassRecord 8 := Vector.replicate 8 .unset
  spread : Vector (Option LaneId) 64 := Vector.replicate 64 none
  salt : Station := 0
  deriving DecidableEq, Repr, Inhabited

/-! ## Cell Pool (chapter 4) -/

/-- The Cell Pool (R74); `held` is pool hold, asserted when true. -/
structure Pool where
  free : Nat := 4096
  holdThreshold : Nat := 256
  releaseThreshold : Nat := 512
  held : Bool := false
  holdEvents : Word := 0
  deriving DecidableEq, Repr, Inhabited

/-! ## Bundle Assembler (chapter 5) -/

/-- The seven close reasons (5.4). -/
inductive CloseReason where
  | count | fill | idle | age | urgent | flush | drain
  deriving DecidableEq, Repr, Inhabited

/-- The five bundle states (R88). -/
inductive BundleState where
  | open | closePending | ready | sent | releasing
  deriving DecidableEq, Repr, Inhabited

/-- A record in a bundle, in its encoded form (R91). -/
inductive PlacedRecord where
  | bound (stream : StreamNo) (timestamp : Word) (value : List Byte)
  | unbound (key : Key) (rule : RuleIndex) (timestamp : Word) (value : List Byte)
  deriving DecidableEq, Repr, Inhabited

/-- The bundle context (R88). The on-wire flag is not stored a second time: it is whether the outbound frame carries the bundle (`State.onWire`). -/
structure Bundle where
  lane : LaneId
  state : BundleState := .open
  records : List PlacedRecord := []
  payload : Nat := 0
  cells : Nat := 0
  openTime : Option Word := none
  closeTime : Option Word := none
  closeReason : Option CloseReason := none
  seq : Option SeqNo := none
  resendCount : Nat := 0
  deriving DecidableEq, Repr, Inhabited

/-- A timer: stopped, or running with an expiry time; `reached` once device time has equalled the expiry and the expiry has not been taken (R101, R102, R103, R130). -/
inductive Timer where
  | stopped
  | running (expiry : Word) (reached : Bool)
  deriving DecidableEq, Repr, Inhabited

/-- The assembly configuration (R92). -/
structure AssemblyConfig where
  maxBytes : Nat := 1024
  recordLimit : Nat := 64
  idleLimit : Nat := 100
  ageLimit : Nat := 100
  deriving DecidableEq, Repr, Inhabited

/-- The thirteen assembly counters (R111), in the order of 9.7. -/
structure AssemblyCounters where
  recordsPlaced : Word := 0
  bytesPlaced : Word := 0
  closeCount : Word := 0
  closeFill : Word := 0
  closeIdle : Word := 0
  closeAge : Word := 0
  closeUrgent : Word := 0
  closeFlush : Word := 0
  closeDrain : Word := 0
  dropLaneFull : Word := 0
  dropPoolEmpty : Word := 0
  dropDisabled : Word := 0
  dropDraining : Word := 0
  deriving DecidableEq, Repr, Inhabited

/-- A Bundle Assembler (R89). An open bundle that has a close reason is closed and offered to the LDU in a handoff not yet taken (R104). -/
structure Assembler where
  openB : Option Bundle := none
  pendingB : Option Bundle := none
  idle : Timer := .stopped
  age : Timer := .stopped
  config : AssemblyConfig := {}
  counters : AssemblyCounters := {}
  deriving DecidableEq, Repr, Inhabited

/-! ## Lane Delivery Unit (chapter 6) -/

/-- The four lane states (R114). -/
inductive LaneState where
  | disabled | open | draining | stalled
  deriving DecidableEq, Repr, Inhabited

/-- The delivery configuration (R113). -/
structure DeliveryConfig where
  window : Nat := 8
  retryLimit : Nat := 3
  timeoutMs : Nat := 20
  deriving DecidableEq, Repr, Inhabited

/-- The five LDU counters (R144), in the order of 9.7. -/
structure LduCounters where
  bundlesSent : Word := 0
  bundlesResent : Word := 0
  retransmitExpiries : Word := 0
  stalls : Word := 0
  aborts : Word := 0
  deriving DecidableEq, Repr, Inhabited

/-- A Lane Delivery Unit (R113). -/
structure Ldu where
  state : LaneState := .disabled
  a : SeqNo := 0
  r : SeqNo := 0
  s : SeqNo := 0
  c : SeqNo := 0
  g : SeqNo := 0
  ready : List Bundle := []
  retention : List Bundle := []
  timer : Timer := .stopped
  retry : Nat := 0
  drainRequested : Bool := false
  config : DeliveryConfig := {}
  counters : LduCounters := {}
  deriving DecidableEq, Repr, Inhabited

/-- One lane: its Assembler and its LDU. -/
structure Lane where
  asm : Assembler := {}
  ldu : Ldu := {}
  deriving DecidableEq, Repr, Inhabited

/-! ## Management Unit and responses (chapter 8) -/

/-- The status codes (R177). -/
inductive Status where
  | ok | busy | noSession | staleEpoch | badCommand | badLength | badRange | notFound | bucketFull | laneBusy | laneDisabled
  | laneStalled | already | empty
  deriving DecidableEq, Repr, Inhabited

/-- A command frame's content (R155): epoch, command sequence, command code, parameter bytes. -/
structure Command where
  epoch : Word
  seq : BitVec 16
  code : Byte
  params : List Byte
  deriving DecidableEq, Repr, Inhabited

/-- A response (R177); the result fields are held as the bytes R204 gives them. -/
structure Response where
  seq : BitVec 16
  code : Byte
  status : Status
  replayed : Bool
  result : List Byte
  deriving DecidableEq, Repr, Inhabited

/-- A block that owns counters of a READ_COUNTERS group (R197). -/
inductive CounterOwner where
  | port (p : PortId)
  | assembler (l : LaneId)
  | ldu (l : LaneId)
  | trunk
  | classifier
  | streams
  | pool
  | mu
  | notices
  deriving DecidableEq, Repr, Inhabited

/-- The progress of the command in execution (R166, R176, R179, R197). A command other than a READ_COUNTERS with owners left to read, or a DATAPATH_RESET under way, is `done`: its effect, or its refusal, is taken and its response is ready. A READ_COUNTERS is `reading` between its owners' events: whether it clears, the owners left in order, and the result bytes so far. The last five are the phases of DATAPATH_RESET: 2 under way, 3 due, 3 waiting for the cut frame's end, 4 due, and 8 with the response ready. -/
inductive Progress where
  | done (response : Response)
  | reading (clear : Bool) (left : List CounterOwner) (result : List Byte)
  | abandoning
  | phase3Due
  | cutting (aborted : Bool)
  | phase4Due (aborted : Bool)
  | resetDone (response : Response)
  deriving DecidableEq, Repr, Inhabited

/-- The command in execution (R166). -/
structure Execution where
  command : Command
  progress : Progress
  deriving DecidableEq, Repr, Inhabited

/-- The last-completed record (R166). -/
structure Completed where
  epoch : Word
  seq : BitVec 16
  response : Response
  deriving DecidableEq, Repr, Inhabited

/-- The Management Unit (R166). The session is OPEN exactly while the current epoch is present (R167). -/
structure Mu where
  epoch : Option Word := none
  lastEpoch : Word := 0
  queue : List Command := []
  executing : Option Execution := none
  last : Option Completed := none
  commandsDone : Word := 0
  commandsBusy : Word := 0
  commandsDiscarded : Word := 0
  duplicatesDiscarded : Word := 0
  replays : Word := 0
  deriving DecidableEq, Repr, Inhabited

/-! ## Notice Unit (chapter 9) -/

/-- The ten notice kinds (R186, R189). -/
inductive NoticeKind where
  | portFault | ingressOverflow | unmatched | laneFullDrop | learnFailed | poolLow | poolEmptyDrop | trunkProtocol
  | laneStalled | laneDrained
  deriving DecidableEq, Repr, Inhabited

/-- The subject of a notice (R185). -/
inductive Subject where
  | none
  | port (p : PortId)
  | lane (l : LaneId)
  deriving DecidableEq, Repr, Inhabited

/-- A notice (R185). -/
structure Notice where
  kind : NoticeKind
  subject : Subject
  time : Word
  count : BitVec 16
  deriving DecidableEq, Repr, Inhabited

/-- The condition that a source's armed and pending flags make (9.2): ARMED, QUIET or PENDING; armed and pending together does not arise. -/
inductive Arming where
  | armed | quiet | pending
  deriving DecidableEq, Repr, Inhabited

/-- A notice source (R185). -/
structure Source where
  arming : Arming := .armed
  count : BitVec 16 := 0
  deriving DecidableEq, Repr, Inhabited

/-- The Notice Unit (R185). -/
structure NoticeUnit where
  sources : Vector Source 44 := Vector.replicate 44 {}
  queue : List Notice := []
  overflow : BitVec 16 := 0
  frameSeq : BitVec 16 := 0
  lost : Word := 0
  deriving DecidableEq, Repr, Inhabited

/-- A batch handed to the Trunk Interface (R193). -/
structure NoticeBatch where
  frameSeq : BitVec 16
  overflow : BitVec 16
  notices : List Notice
  deriving DecidableEq, Repr, Inhabited

/-! ## Trunk Interface (chapter 7) -/

/-- A lane update (R118); an absent resend-from is `none`. -/
structure LaneUpdate where
  lane : LaneId
  ack : SeqNo
  grant : SeqNo
  resendFrom : Option SeqNo
  deriving DecidableEq, Repr, Inhabited

/-- The inbound frame in progress: its bytes so far, or marked too long (R151). -/
inductive Inbound where
  | receiving (bytes : List Byte)
  | tooLong
  deriving DecidableEq, Repr, Inhabited

/-- The transmission mode of a bundle frame (R146). -/
inductive TxMode where
  | sending | cutting
  deriving DecidableEq, Repr, Inhabited

/-- The bundle of a bundle frame: still retained by its lane under a sequence, or RELEASING and held by the Trunk Interface (R120, R161). -/
inductive WireBundle where
  | retained (seq : SeqNo)
  | releasing (bundle : Bundle)
  deriving DecidableEq, Repr, Inhabited

/-- The outbound frame on the wire, with its bytes from the unit number through the frame check (R146, R156, R205). -/
inductive Outbound where
  | response (response : Response) (bytes : List Byte)
  | notices (batch : NoticeBatch) (bytes : List Byte)
  | bundle (lane : LaneId) (mode : TxMode) (carried : WireBundle) (bytes : List Byte)
  deriving DecidableEq, Repr, Inhabited

/-- The request the arbiter has made and that is not yet taken (R158, R159): a batch request to the Notice Unit, or a send start request to an LDU. -/
inductive ArbiterRequest where
  | none
  | batch
  | sendStart (lane : LaneId)
  deriving DecidableEq, Repr, Inhabited

/-- The twelve counters of group TRUNK (R164), in the order of 9.7. -/
structure TrunkCounters where
  framesInOk : Word := 0
  inCheckErrors : Word := 0
  inUnitMismatch : Word := 0
  inUnknownKind : Word := 0
  inLengthErrors : Word := 0
  laneUpdates : Word := 0
  updateRefused : Word := 0
  updateIdleLane : Word := 0
  grantClamped : Word := 0
  updatesDiscardedReset : Word := 0
  framesOut : Word := 0
  linkLosses : Word := 0
  deriving DecidableEq, Repr, Inhabited

/-- What the dispatch of an inbound frame hands on: a lane update to its LDU (R153), or a command arrival to the MU (R155). -/
inductive Handover where
  | update (u : LaneUpdate)
  | arrival (c : Command)
  deriving DecidableEq, Repr, Inhabited

/-- The Trunk Interface (R146), with the lane updates and command arrivals it has handed on and that are not yet taken, oldest first (R153, R155). -/
structure Trunk where
  linkUp : Bool := false
  unit : Byte := 0xFF
  inbound : Option Inbound := none
  outbound : Option Outbound := none
  responses : List Response := []
  lastServed : LaneId := 15
  request : ArbiterRequest := .none
  handed : List Handover := []
  counters : TrunkCounters := {}
  deriving DecidableEq, Repr, Inhabited

/-! ## The whole part -/

/-- The state of the PZ816. `resetN` is the level of RESET_N, and `lines` says of each FLD_IN pin whether its line carries a signal (10.5, R4). `freeCount` counts the free values drawn and `pending` is the queue of commands that wait, first in, first out; these two are the model's own fields. -/
structure State where
  resetN : Bool := true
  lines : Vector Bool 8 := Vector.replicate 8 false
  deviceTime : Word := 0
  ports : Vector Port 8 := Vector.replicate 8 {}
  classifier : Classifier := {}
  streams : StreamTable := {}
  rules : RuleSet := {}
  map : ClassMap := {}
  pool : Pool := {}
  lanes : Vector Lane 16 := Vector.replicate 16 {}
  trunk : Trunk := {}
  mu : Mu := {}
  notices : NoticeUnit := {}
  freeCount : Nat := 0
  pending : List Instr := []
  deriving DecidableEq, Repr, Inhabited

/-- The machine right after reset: every block at its power-on values (R5, R46, R73, R74, R89, R113, R146, R166, R185), RESET_N released, no strap fitted, so that the unit number is 255 (R206), and no line carrying a signal. -/
def State.reset : State := {}

end Sys2Proof.Machine

/-- FREE VALUE (R206): the state the part is in after a low level of RESET_N shorter than the minimum, which the spec calls undetermined. Nothing constrains it. -/
opaque Sys2Proof.Config.undeterminedState : Nat → Sys2Proof.Machine.State
end

