-- ==== Sys2Proof/Machine/Operands.lean ====
section
/-! DEFINITION. The encodings of chapter 10: byte order, the field types of command parameters and result fields (R202, R203, R204), and the layouts of inbound frames and field records (R200, R201). -/

namespace Sys2Proof.Machine

/-! ## Byte order: most significant byte first (00, Conventions) -/

/-- Two bytes as a 16-bit field. -/
def be16 (a b : Byte) : BitVec 16 := a ++ b

/-- Three bytes as a 24-bit field. -/
def be24 (a b c : Byte) : BitVec 24 := a ++ b ++ c

/-- Four bytes as a 32-bit field. -/
def be32 (a b c d : Byte) : BitVec 32 := a ++ b ++ c ++ d

/-- A one-byte field as bytes. -/
def enc8 (n : Nat) : List Byte := [BitVec.ofNat 8 n]

/-- A 16-bit field as bytes. -/
def enc16 (x : BitVec 16) : List Byte := [x.extractLsb' 8 8, x.extractLsb' 0 8]

/-- A 24-bit field as bytes. -/
def enc24 (x : BitVec 24) : List Byte := [x.extractLsb' 16 8, x.extractLsb' 8 8, x.extractLsb' 0 8]

/-- A 32-bit field as bytes. -/
def enc32 (x : BitVec 32) : List Byte := [x.extractLsb' 24 8, x.extractLsb' 16 8, x.extractLsb' 8 8, x.extractLsb' 0 8]

/-- A count, a cell count or a stream number: two bytes (R202). -/
def encCount (n : Nat) : List Byte := enc16 (BitVec.ofNat 16 n)

/-- A two-valued state in a result field, and bit 0 of a response's flags: 00h or 01h (R204, 10.3). -/
def encBit (b : Bool) : List Byte := [if b then 1 else 0]

/-- A flag in a result field: 00h no (R202, R204). R202 allows any other value for yes and names none that the part sends; 01h is the model's choice (assumption 27). -/
def encFlag (b : Bool) : List Byte := [if b then 1 else 0]

/-- An optional field: 00h when absent, 01h and the value when present (R202). -/
def encOpt {α : Type} (f : α → List Byte) : Option α → List Byte
  | none => [0]
  | some x => 1 :: f x

/-- A key: port, station id, channel tag (R202). -/
def encKey (k : Key) : List Byte := enc8 k.port ++ enc24 k.station ++ enc16 k.tag

/-! ## One-byte codes (R201, R202, R204) -/

/-- The status codes of a response frame (10.3). -/
def Status.code : Status → Nat
  | .ok => 0x00
  | .busy => 0x01
  | .noSession => 0x02
  | .staleEpoch => 0x03
  | .badCommand => 0x04
  | .badLength => 0x05
  | .badRange => 0x06
  | .notFound => 0x07
  | .bucketFull => 0x08
  | .laneBusy => 0x09
  | .laneDisabled => 0x0A
  | .laneStalled => 0x0B
  | .already => 0x0C
  | .empty => 0x0D

/-- The port state codes (R204). -/
def PortState.code : PortState → Nat
  | .disabled => 0
  | .down => 1
  | .up => 2
  | .fault => 3

/-- The lane state codes (R204). -/
def LaneState.code : LaneState → Nat
  | .disabled => 0
  | .open => 1
  | .draining => 2
  | .stalled => 3

/-- The stale policy codes (R202). -/
def StalePolicy.code : StalePolicy → Nat
  | .keep => 0
  | .dropOlder => 1
  | .dropNotNewer => 2

/-- The stale policy of a code; any other code is none of the three (R202). -/
def StalePolicy.ofCode (b : Byte) : Option StalePolicy :=
  if b = 0 then some .keep else if b = 1 then some .dropOlder else if b = 2 then some .dropNotNewer else none

/-- The action codes (R202). -/
def Action.code : Action → Nat
  | .place => 0
  | .drop => 1

/-- The action of a code (R202). -/
def Action.ofCode (b : Byte) : Option Action := if b = 0 then some .place else if b = 1 then some .drop else none

/-- The close reason codes of a bundle header (10.3). -/
def CloseReason.code : CloseReason → Nat
  | .count => 1
  | .fill => 2
  | .idle => 3
  | .age => 4
  | .urgent => 5
  | .flush => 6
  | .drain => 7

/-- The notice kind codes (10.3). -/
def NoticeKind.code : NoticeKind → Nat
  | .portFault => 0x01
  | .ingressOverflow => 0x02
  | .unmatched => 0x03
  | .laneFullDrop => 0x04
  | .learnFailed => 0x05
  | .poolLow => 0x06
  | .poolEmptyDrop => 0x07
  | .trunkProtocol => 0x08
  | .laneStalled => 0x09
  | .laneDrained => 0x0A

/-- The subject byte of a notice entry: FFh for none (10.3). -/
def Subject.code : Subject → Nat
  | .none => 0xFF
  | .port p => p
  | .lane l => l

/-- A spread entry as a byte: FFh for UNSET (R202). -/
def encSpread : Option LaneId → List Byte
  | none => [0xFF]
  | some l => enc8 l

/-! ## Command codes (8.7) -/

namespace Code
def openSession : Byte := 0x01
def closeSession : Byte := 0x02
def readStatus : Byte := 0x03
def datapathReset : Byte := 0x04
def portSet : Byte := 0x10
def streamWrite : Byte := 0x20
def streamDelete : Byte := 0x21
def streamRead : Byte := 0x22
def ruleStage : Byte := 0x30
def ruleApply : Byte := 0x31
def ruleRead : Byte := 0x32
def classWrite : Byte := 0x33
def spreadWrite : Byte := 0x34
def mapRead : Byte := 0x35
def poolSet : Byte := 0x40
def laneFlush : Byte := 0x50
def laneConfig : Byte := 0x51
def laneStart : Byte := 0x52
def laneStop : Byte := 0x53
def laneReset : Byte := 0x54
def noticeRearm : Byte := 0x60
def readCounters : Byte := 0x61
end Code

/-- The codes of the command index (8.7); any other code gives BAD_COMMAND. -/
def commandIndex : List Byte :=
  [Code.openSession, Code.closeSession, Code.readStatus, Code.datapathReset, Code.portSet, Code.streamWrite, Code.streamDelete,
   Code.streamRead, Code.ruleStage, Code.ruleApply, Code.ruleRead, Code.classWrite, Code.spreadWrite, Code.mapRead, Code.poolSet,
   Code.laneFlush, Code.laneConfig, Code.laneStart, Code.laneStop, Code.laneReset, Code.noticeRearm, Code.readCounters]

/-! ## Reading parameter bytes (R203) -/

/-- A reader takes a field from the front of the bytes and answers it with the bytes that remain; none when the bytes end inside it or a presence byte is neither 00h nor 01h. -/
abbrev Reader (α : Type) := List Byte → Option (α × List Byte)

/-- A one-byte field. -/
def read8 : Reader Byte
  | a :: r => some (a, r)
  | _ => none

/-- A two-byte field. -/
def read16 : Reader (BitVec 16)
  | a :: b :: r => some (be16 a b, r)
  | _ => none

/-- A three-byte field. -/
def read24 : Reader (BitVec 24)
  | a :: b :: c :: r => some (be24 a b c, r)
  | _ => none

/-- A count or a cell count as a number. -/
def readCount : Reader Nat
  | a :: b :: r => some ((be16 a b).toNat, r)
  | _ => none

/-- A flag: any nonzero byte is yes (R202, R203). -/
def readFlag : Reader Bool
  | a :: r => some (a != 0, r)
  | _ => none

/-- An optional field: presence byte 00h or 01h, then the field when present (R202, R203). -/
def readOpt {α : Type} (f : Reader α) : Reader (Option α)
  | a :: r =>
    if a = 0 then some (none, r)
    else if a = 1 then
      match f r with
      | some (x, r') => some (some x, r')
      | none => none
    else none
  | _ => none

/-- A list of one-byte fields: a count byte, then that many fields (R202, R203). -/
def readList : Reader (List Byte)
  | n :: r => if r.length < n.toNat then none else some (r.take n.toNat, r.drop n.toNat)
  | _ => none

/-- Parameters are well formed when the last field ends exactly at the last byte (R203). -/
def readWhole {α : Type} (f : Reader α) (bytes : List Byte) : Option α :=
  match f bytes with
  | some (x, []) => some x
  | _ => none

/-- A key as its bytes name it; the port is not judged here (R203). -/
structure RawKey where
  port : Byte
  station : Station
  tag : Tag
  deriving DecidableEq, Repr, Inhabited

/-- A key field (R202). -/
def readKey : Reader RawKey
  | p :: a :: b :: c :: d :: e :: r => some (⟨p, be24 a b c, be16 d e⟩, r)
  | _ => none

/-- The field port, when the byte names one (0–7). -/
def portOf (b : Byte) : Option PortId := if h : b.toNat < 8 then some ⟨b.toNat, h⟩ else none

/-- The lane, when the byte names one (0–15). -/
def laneOf (b : Byte) : Option LaneId := if h : b.toNat < 16 then some ⟨b.toNat, h⟩ else none

/-- The class, when the byte names one (0–7). -/
def classOf (b : Byte) : Option ClassId := if h : b.toNat < 8 then some ⟨b.toNat, h⟩ else none

/-- The index, 0–63, when the byte names one. -/
def indexOf (b : Byte) : Option (Fin 64) := if h : b.toNat < 64 then some ⟨b.toNat, h⟩ else none

/-- The key, when its port is 0–7. -/
def RawKey.key (k : RawKey) : Option Key := (portOf k.port).map fun p => ⟨p, k.station, k.tag⟩

/-- No parameters. -/
def readNothing : Reader Unit := fun bs => some ((), bs)

/-- The parameters of PORT_SET (R6). -/
structure PortSetParams where
  port : Byte
  enable : Bool
  deriving DecidableEq, Repr, Inhabited

def readPortSet : Reader PortSetParams := fun bs => do
  let (port, bs) ← read8 bs
  let (enable, bs) ← readFlag bs
  some ({ port, enable }, bs)

/-- The parameters of STREAM_WRITE (R38). -/
structure StreamWriteParams where
  key : RawKey
  cls : Byte
  decimation : Option Nat
  stale : Byte
  urgent : Bool
  deriving DecidableEq, Repr, Inhabited

def readStreamWrite : Reader StreamWriteParams := fun bs => do
  let (key, bs) ← readKey bs
  let (cls, bs) ← read8 bs
  let (decimation, bs) ← readOpt readCount bs
  let (stale, bs) ← read8 bs
  let (urgent, bs) ← readFlag bs
  some ({ key, cls, decimation, stale, urgent }, bs)

/-- What STREAM_READ selects (R43, R203): a key, a stream number, or a selector outside its table. -/
inductive StreamSelector where
  | key (k : RawKey)
  | number (n : BitVec 16)
  | other
  deriving DecidableEq, Repr, Inhabited

/-- The parameters of STREAM_READ (R43). -/
structure StreamReadParams where
  selector : StreamSelector
  clear : Bool
  deriving DecidableEq, Repr, Inhabited

/-- STREAM_READ's parameters (R203): with a selector code outside its table they are well formed when 4 or 8 bytes long, and the clear flag is the last byte. -/
def parseStreamRead (bytes : List Byte) : Option StreamReadParams :=
  match bytes with
  | [] => none
  | sel :: rest =>
    if sel = 0 then
      readWhole (fun bs => do
        let (k, bs) ← readKey bs
        let (clear, bs) ← readFlag bs
        some (⟨.key k, clear⟩, bs)) rest
    else if sel = 1 then
      readWhole (fun bs => do
        let (n, bs) ← read16 bs
        let (clear, bs) ← readFlag bs
        some (⟨.number n, clear⟩, bs)) rest
    else if bytes.length = 4 ∨ bytes.length = 8 then some ⟨.other, bytes.getLastD 0 != 0⟩
    else none

/-- The parameters of RULE_STAGE (R64). -/
structure RuleStageParams where
  index : Byte
  valid : Bool
  portSet : Byte
  stationValue : Station
  stationMask : Station
  tagValue : Tag
  tagMask : Tag
  action : Byte
  cls : Byte
  learn : Bool
  stale : Byte
  deriving DecidableEq, Repr, Inhabited

def readRuleStage : Reader RuleStageParams := fun bs => do
  let (index, bs) ← read8 bs
  let (valid, bs) ← readFlag bs
  let (portSet, bs) ← read8 bs
  let (stationValue, bs) ← read24 bs
  let (stationMask, bs) ← read24 bs
  let (tagValue, bs) ← read16 bs
  let (tagMask, bs) ← read16 bs
  let (action, bs) ← read8 bs
  let (cls, bs) ← read8 bs
  let (learn, bs) ← readFlag bs
  let (stale, bs) ← read8 bs
  some ({ index, valid, portSet, stationValue, stationMask, tagValue, tagMask, action, cls, learn, stale }, bs)

/-- The parameters of RULE_READ (R66). -/
structure RuleReadParams where
  list : Byte
  index : Byte
  deriving DecidableEq, Repr, Inhabited

def readRuleRead : Reader RuleReadParams := fun bs => do
  let (list, bs) ← read8 bs
  let (index, bs) ← read8 bs
  some ({ list, index }, bs)

/-- The parameters of CLASS_WRITE (R68). -/
structure ClassWriteParams where
  cls : Byte
  mode : Byte
  lane : Option Byte
  base : Option Byte
  size : Option Nat
  deriving DecidableEq, Repr, Inhabited

def readClassWrite : Reader ClassWriteParams := fun bs => do
  let (cls, bs) ← read8 bs
  let (mode, bs) ← read8 bs
  let (lane, bs) ← readOpt read8 bs
  let (base, bs) ← readOpt read8 bs
  let (size, bs) ← readOpt readCount bs
  some ({ cls, mode, lane, base, size }, bs)

/-- The parameters of SPREAD_WRITE (R69). -/
structure SpreadWriteParams where
  first : Byte
  entries : List Byte
  salt : Option Station
  deriving DecidableEq, Repr, Inhabited

def readSpreadWrite : Reader SpreadWriteParams := fun bs => do
  let (first, bs) ← read8 bs
  let (entries, bs) ← readList bs
  let (salt, bs) ← readOpt read24 bs
  some ({ first, entries, salt }, bs)

/-- The parameters of POOL_SET (R82). -/
structure PoolSetParams where
  hold : Nat
  release : Nat
  deriving DecidableEq, Repr, Inhabited

def readPoolSet : Reader PoolSetParams := fun bs => do
  let (hold, bs) ← readCount bs
  let (release, bs) ← readCount bs
  some ({ hold, release }, bs)

/-- The parameters of LANE_CONFIG (R136). -/
structure LaneConfigParams where
  lane : Byte
  window : Option Nat
  retryLimit : Option Nat
  timeoutMs : Option Nat
  maxBytes : Option Nat
  recordLimit : Option Nat
  idleLimit : Option Nat
  ageLimit : Option Nat
  deriving DecidableEq, Repr, Inhabited

def readLaneConfig : Reader LaneConfigParams := fun bs => do
  let (lane, bs) ← read8 bs
  let (window, bs) ← readOpt readCount bs
  let (retryLimit, bs) ← readOpt readCount bs
  let (timeoutMs, bs) ← readOpt readCount bs
  let (maxBytes, bs) ← readOpt readCount bs
  let (recordLimit, bs) ← readOpt readCount bs
  let (idleLimit, bs) ← readOpt readCount bs
  let (ageLimit, bs) ← readOpt readCount bs
  some ({ lane, window, retryLimit, timeoutMs, maxBytes, recordLimit, idleLimit, ageLimit }, bs)

/-- The parameters of READ_STATUS (R178). -/
structure ReadStatusParams where
  scope : Byte
  number : Option Nat
  deriving DecidableEq, Repr, Inhabited

def readReadStatus : Reader ReadStatusParams := fun bs => do
  let (scope, bs) ← read8 bs
  let (number, bs) ← readOpt readCount bs
  some ({ scope, number }, bs)

/-- The parameters of NOTICE_REARM (R192). -/
structure NoticeRearmParams where
  selection : Byte
  sources : List Byte
  deriving DecidableEq, Repr, Inhabited

def readNoticeRearm : Reader NoticeRearmParams := fun bs => do
  let (selection, bs) ← read8 bs
  let (sources, bs) ← readList bs
  some ({ selection, sources }, bs)

/-- The parameters of READ_COUNTERS (R196). -/
structure ReadCountersParams where
  group : Byte
  number : Option Nat
  clear : Bool
  deriving DecidableEq, Repr, Inhabited

def readReadCounters : Reader ReadCountersParams := fun bs => do
  let (group, bs) ← read8 bs
  let (number, bs) ← readOpt readCount bs
  let (clear, bs) ← readFlag bs
  some ({ group, number, clear }, bs)

/-! ## Frames -/

/-- The bytes a frame check covers: all but the last four (R14, R152). -/
def frameBody (bytes : List Byte) : List Byte := bytes.take (bytes.length - 4)

/-- The frame check field, most significant byte first (R14). -/
def checkField (bytes : List Byte) : Option Word :=
  match bytes.drop (bytes.length - 4) with
  | [a, b, c, d] => some (be32 a b c d)
  | _ => none

/-- The frame check is correct when the computed check and the field are equal (R14). -/
def checkCorrect (bytes : List Byte) : Bool := checkField bytes == some (frameCheck (frameBody bytes))

/-- A body followed by its frame check (R156). -/
def withCheck (body : List Byte) : List Byte := body ++ enc32 (frameCheck body)

/-- The frame kind DATA of a field frame (R200). -/
def kindData : Byte := 0x01

/-- The frame kind LANE_CONTROL (R201). -/
def kindLaneControl : Byte := 0x21

/-- The frame kind COMMAND (R201). -/
def kindCommand : Byte := 0x22

/-- The frame kind BUNDLE (R201). -/
def kindBundle : Byte := 0x31

/-- The frame kind RESPONSE (R201). -/
def kindResponse : Byte := 0x32

/-- The frame kind NOTICE (R201). -/
def kindNotice : Byte := 0x33

/-- Reads n encoded records that end exactly at the end of the body (R49, R200): none when a value length is above 64, or the records do not end exactly there. -/
def parseRecords : Nat → List Byte → Option (List FieldRecord)
  | 0, [] => some []
  | 0, _ :: _ => none
  | n + 1, t1 :: t0 :: s3 :: s2 :: s1 :: s0 :: len :: rest =>
    if 64 < len.toNat ∨ rest.length < len.toNat then none
    else
      match parseRecords n (rest.drop len.toNat) with
      | some rs => some (⟨be16 t1 t0, be32 s3 s2 s1 s0, rest.take len.toNat⟩ :: rs)
      | none => none
  | _ + 1, _ => none

/-- The station id and the records of a field frame, or none when it is MALFORMED (R49). -/
def parseFieldFrame (bytes : List Byte) : Option (Station × List FieldRecord) :=
  match frameBody bytes with
  | s2 :: s1 :: s0 :: _kind :: count :: body =>
    if count = 0 ∨ Config.recordsPerFrame < count.toNat then none
    else (parseRecords count.toNat body).map fun rs => (be24 s2 s1 s0, rs)
  | _ => none

/-- A lane update as its eight bytes give it (10.3); the resend-from is examined only when bit 0 of the flags is 1. -/
structure RawUpdate where
  lane : Byte
  ack : SeqNo
  grant : SeqNo
  resendFrom : Option SeqNo
  deriving DecidableEq, Repr, Inhabited

/-- The lane updates of a lane control frame, in order (10.3). -/
def parseUpdates : Nat → List Byte → List RawUpdate
  | n + 1, l :: f :: a1 :: a0 :: g1 :: g0 :: r1 :: r0 :: rest =>
    ⟨l, be16 a1 a0, be16 g1 g0, if f.getLsbD 0 then some (be16 r1 r0) else none⟩ :: parseUpdates n rest
  | _, _ => []

/-- What a good inbound frame carries (R150, R152). -/
inductive InboundContent where
  | laneControl (updates : List RawUpdate)
  | command (command : Command)
  deriving DecidableEq, Repr, Inhabited

/-- Check 5 of R152 and the frame's content: the total length within the kind's bounds and consistent with the frame's own count. -/
def parseInbound (bytes : List Byte) : Option InboundContent :=
  match frameBody bytes with
  | _unit :: kind :: rest =>
    if kind = kindLaneControl then
      match rest with
      | n :: updates =>
        if 1 ≤ n.toNat ∧ n.toNat ≤ 16 ∧ bytes.length = 7 + 8 * n.toNat then some (.laneControl (parseUpdates n.toNat updates))
        else none
      | [] => none
    else
      match rest with
      | e3 :: e2 :: e1 :: e0 :: q1 :: q0 :: code :: p :: params =>
        if bytes.length = 14 + p.toNat then some (.command ⟨be32 e3 e2 e1 e0, be16 q1 q0, code, params⟩) else none
      | _ => none
  | _ => none

/-! ## Outbound frames (R156, R201, R205) -/

/-- The bytes of a response frame, from the unit number through the frame check (10.3). -/
def Response.frame (unit : Byte) (r : Response) : List Byte :=
  withCheck ([unit, kindResponse] ++ enc16 r.seq ++ [r.code] ++ enc8 r.status.code ++ encBit r.replayed
    ++ encCount r.result.length ++ r.result)

/-- A notice entry (10.3). -/
def Notice.entry (n : Notice) : List Byte := enc8 n.kind.code ++ enc8 n.subject.code ++ enc32 n.time ++ enc16 n.count

/-- The bytes of a notice frame (10.3). -/
def NoticeBatch.frame (unit : Byte) (b : NoticeBatch) : List Byte :=
  withCheck ([unit, kindNotice] ++ enc16 b.frameSeq ++ enc16 b.overflow ++ enc8 b.notices.length ++ b.notices.flatMap Notice.entry)

/-- A record of a bundle frame in its encoded form (R91, 10.3). -/
def PlacedRecord.encode : PlacedRecord → List Byte
  | .bound stream ts value => [0x00] ++ encCount stream ++ enc8 value.length ++ enc32 ts ++ value
  | .unbound key rule ts value =>
    [0x01] ++ enc8 key.port ++ enc24 key.station ++ enc16 key.tag ++ enc8 rule ++ enc32 ts ++ enc8 value.length
      ++ [0x00, 0x00, 0x00] ++ value

/-- The bundle header (R91, 10.3). -/
def Bundle.header (b : Bundle) : List Byte :=
  enc8 b.lane ++ enc8 (match b.closeReason with | some r => r.code | none => 0) ++ enc16 (b.seq.getD 0) ++ enc8 b.records.length
    ++ enc8 b.resendCount ++ encCount b.payload ++ enc32 (b.openTime.getD 0) ++ enc32 (b.closeTime.getD 0)

/-- The bytes of a bundle frame, formed from the bundle context as it stands (R205). -/
def Bundle.frame (unit : Byte) (b : Bundle) : List Byte :=
  withCheck ([unit, kindBundle] ++ b.header ++ b.records.flatMap PlacedRecord.encode)

end Sys2Proof.Machine
end

