-- ==== Sys2Proof/Machine/Ops.lean ====
section
/-! DEFINITION. The shared operations of the field ports, the notice unit, the cell pool and the stream table, and the accessors of the banked state. -/

namespace Sys2Proof.Machine

/-! ## Running, and the operands that name a port or a lane -/

/-- While RESET_N is low every block holds its values and no event reaches it (R206); otherwise the event acts. -/
def running (f : State → State) (s : State) : Host.Outcome State Fault Refusal := .next (if s.resetN then f s else s)

/-- An event of a field line: there is no line above 7. -/
def onPort (p : Nat) (f : PortId → State → State) (s : State) : Host.Outcome State Fault Refusal :=
  if h : p < 8 then running (f ⟨p, h⟩) s else .fault .noSuchPort

/-- An event of a lane: there is no lane above 15. -/
def onLane (l : Nat) (f : LaneId → State → State) (s : State) : Host.Outcome State Fault Refusal :=
  if h : l < 16 then running (f ⟨l, h⟩) s else .fault .noSuchLane

/-! ## Banked state -/

/-- The FPR of a port. -/
def State.port (s : State) (p : PortId) : Port := s.ports[p]

/-- Replaces the FPR of a port. -/
def State.setPort (s : State) (p : PortId) (x : Port) : State := { s with ports := s.ports.set p.val x p.isLt }

/-- A lane's Assembler and LDU. -/
def State.lane (s : State) (l : LaneId) : Lane := s.lanes[l]

/-- Replaces a lane's Assembler and LDU. -/
def State.setLane (s : State) (l : LaneId) (x : Lane) : State := { s with lanes := s.lanes.set l.val x l.isLt }

/-- Whether a field line carries a signal (R4, 10.5). -/
def State.line (s : State) (p : PortId) : Bool := s.lines[p]

/-- A field line takes a signal or loses it. -/
def State.setLine (s : State) (p : PortId) (signal : Bool) : State := { s with lines := s.lines.set p.val signal p.isLt }

/-- Changes the counters of a port. -/
def State.countPort (s : State) (p : PortId) (f : PortCounters → PortCounters) : State :=
  s.setPort p { s.port p with counters := f (s.port p).counters }

/-- Changes the trunk counters (R164). -/
def State.countTrunk (s : State) (f : TrunkCounters → TrunkCounters) : State :=
  { s with trunk := { s.trunk with counters := f s.trunk.counters } }

/-- A stream table slot. -/
def StreamTable.slot (t : StreamTable) (n : StreamNo) : Slot := t.slots[n]

/-- Replaces a stream table slot. -/
def StreamTable.setSlot (t : StreamTable) (n : StreamNo) (x : Slot) : StreamTable := { t with slots := t.slots.set n.val x n.isLt }

/-- A notice source. -/
def NoticeUnit.source (u : NoticeUnit) (i : SourceNo) : Source := u.sources[i]

/-- Replaces a notice source. -/
def NoticeUnit.setSource (u : NoticeUnit) (i : SourceNo) (x : Source) : NoticeUnit := { u with sources := u.sources.set i.val x i.isLt }

/-! ## Notice Unit (chapter 9) -/

/-- The source PORT_FAULT of a port (R186). -/
def srcPortFault (p : PortId) : SourceNo := ⟨p.val, by omega⟩

/-- The source INGRESS_OVERFLOW of a port (R186). -/
def srcIngressOverflow (p : PortId) : SourceNo := ⟨8 + p.val, by omega⟩

/-- The source UNMATCHED of a port (R186). -/
def srcUnmatched (p : PortId) : SourceNo := ⟨16 + p.val, by omega⟩

/-- The source LANE_FULL_DROP of a lane (R186). -/
def srcLaneFullDrop (l : LaneId) : SourceNo := ⟨24 + l.val, by omega⟩

/-- The source LEARN_FAILED (R186). -/
def srcLearnFailed : SourceNo := 40

/-- The source POOL_LOW (R186). -/
def srcPoolLow : SourceNo := 41

/-- The source POOL_EMPTY_DROP (R186). -/
def srcPoolEmptyDrop : SourceNo := 42

/-- The source TRUNK_PROTOCOL (R186). -/
def srcTrunkProtocol : SourceNo := 43

/-- The kind and subject of a source's notices (R186). -/
def sourceSubject (i : SourceNo) : NoticeKind × Subject :=
  if h : i.val < 8 then (.portFault, .port ⟨i.val, h⟩)
  else if h : i.val < 16 then (.ingressOverflow, .port ⟨i.val - 8, by omega⟩)
  else if h : i.val < 24 then (.unmatched, .port ⟨i.val - 16, by omega⟩)
  else if h : i.val < 40 then (.laneFullDrop, .lane ⟨i.val - 24, by omega⟩)
  else if i.val = 40 then (.learnFailed, .none)
  else if i.val = 41 then (.poolLow, .none)
  else if i.val = 42 then (.poolEmptyDrop, .none)
  else (.trunkProtocol, .none)

/-- A notice offered to the queue: taken at the tail, or none when the queue holds 32 (R191). -/
def NoticeUnit.offer (u : NoticeUnit) (n : Notice) : Option NoticeUnit :=
  if u.queue.length < Config.noticePlaces then some { u with queue := u.queue ++ [n] } else none

/-- The counting of a lost notice (R191, R198). -/
def NoticeUnit.lose (u : NoticeUnit) : NoticeUnit := { u with overflow := satInc u.overflow, lost := satInc u.lost }

/-- The notice a source forms (R187, R190). -/
def sourceNotice (i : SourceNo) (now : Word) (count : BitVec 16) : Notice :=
  ⟨(sourceSubject i).1, (sourceSubject i).2, now, count⟩

/-- An event at a source (R187, R188, R191). -/
def NoticeUnit.event (u : NoticeUnit) (now : Word) (i : SourceNo) : NoticeUnit :=
  let count := satInc (u.source i).count
  match (u.source i).arming with
  | .armed =>
    match u.offer (sourceNotice i now count) with
    | some u' => u'.setSource i ⟨.quiet, 0⟩
    | none => u.lose.setSource i ⟨.pending, count⟩
  | .quiet => u.setSource i ⟨.pending, count⟩
  | .pending => u.setSource i ⟨.pending, count⟩

/-- An unconditional notice (R189): LANE_STALLED or LANE_DRAINED. -/
def NoticeUnit.unconditional (u : NoticeUnit) (now : Word) (kind : NoticeKind) (l : LaneId) : NoticeUnit :=
  match u.offer ⟨kind, .lane l, now, 1⟩ with
  | some u' => u'
  | none => u.lose

/-- What a re-arm found and did at the sources concerned (R192). -/
structure RearmTally where
  armed : Nat := 0
  delivered : Nat := 0
  lost : Nat := 0
  deriving DecidableEq, Repr, Inhabited

/-- The re-arm of one source (R190, R191). -/
def NoticeUnit.rearm (now : Word) (x : NoticeUnit × RearmTally) (i : SourceNo) : NoticeUnit × RearmTally :=
  let u := x.1
  let t := x.2
  match (u.source i).arming with
  | .armed => (u, t)
  | .quiet => (u.setSource i { u.source i with arming := .armed }, { t with armed := t.armed + 1 })
  | .pending =>
    match u.offer (sourceNotice i now (u.source i).count) with
    | some u' => (u'.setSource i ⟨.quiet, 0⟩, { t with delivered := t.delivered + 1 })
    | none => (u.lose, { t with lost := t.lost + 1 })

/-- The re-arm of every source that `concerned` names, in increasing source number, within one event (R190). -/
def NoticeUnit.rearmAll (u : NoticeUnit) (now : Word) (concerned : SourceNo → Bool) : NoticeUnit × RearmTally :=
  ((List.finRange 44).filter concerned).foldl (NoticeUnit.rearm now) (u, {})

/-- A block raises an event at a source, whether or not a session is open (R186). -/
def State.raise (s : State) (i : SourceNo) : State := { s with notices := s.notices.event s.deviceTime i }

/-- An LDU has an unconditional notice queued (R189). -/
def State.notify (s : State) (kind : NoticeKind) (l : LaneId) : State :=
  { s with notices := s.notices.unconditional s.deviceTime kind l }

/-! ## Cell Pool (chapter 4) -/

/-- The cells that a bundle of this many payload bytes holds: the ceiling of its size over 64 (R75). -/
def cellsFor (payload : Nat) : Nat := (Config.headerBytes + payload + (Config.cellBytes - 1)) / Config.cellBytes

/-- The assertion of pool hold (R79, R82). -/
def State.assertHold (s : State) : State :=
  { s with pool := { s.pool with held := true, holdEvents := satInc s.pool.holdEvents } }.raise srcPoolLow

/-- An allocation request (R76, R79): granted whole, or refused. A request for 0 cells is granted with no change. -/
def State.allocate (s : State) (n : Nat) : Option State :=
  if n = 0 then some s
  else if s.pool.free < n then none
  else
    let s' : State := { s with pool := { s.pool with free := s.pool.free - n } }
    if s.pool.held = false ∧ s.pool.free - n < s.pool.holdThreshold then some s'.assertHold else some s'

/-- A freeing of one bundle's cells (R77, R80). A freeing of 0 cells changes nothing. -/
def State.freeCells (s : State) (n : Nat) : State :=
  if n = 0 then s
  else
    { s with pool := { s.pool with
        free := s.pool.free + n
        held := s.pool.held && decide (s.pool.free + n ≤ s.pool.releaseThreshold) } }

/-! ## Field Port Receiver (chapter 1) -/

/-- The bytes that the frame in reception has stored in the FIFO (R10). -/
def Reception.stored : Reception → List Byte
  | .accept bytes => bytes
  | .tooLong | .spent | .discard | .reset => []

/-- The byte count so far of the frame in reception (R9, R12): 0 in the modes DISCARD and RESET. The spec gives no count of a frame that has become spent or was marked too long; that such a frame counts 0 and 1025 is the model's choice (assumption 25), and nothing reads either. -/
def Reception.byteCount : Reception → Nat
  | .accept bytes => bytes.length
  | .tooLong => Config.frameMaxBytes + 1
  | .spent | .discard | .reset => 0

/-- The frames of the ingress FIFO, oldest first (R10). -/
def Port.fifo (q : Port) : List (List Byte) :=
  q.taken.toList ++ q.complete ++ (match q.reception with | some (.accept bytes) => [bytes] | _ => [])

/-- The FIFO fill: the bytes stored for all frames in the list (R10). -/
def Port.fill (q : Port) : Nat := (q.fifo.map List.length).sum

/-- The FIFO-high flag after a stored byte (R20). -/
def Port.afterStore (q : Port) : Port := { q with fifoHigh := q.fifoHigh || decide (Config.fifoHighMark ≤ q.fill) }

/-- The FIFO-high flag after a release (R20). -/
def Port.afterRelease (q : Port) : Port := { q with fifoHigh := q.fifoHigh && decide (Config.fifoLowMark < q.fill) }

/-- The hold line of a port (R21): asserted while at least one of its four conditions holds. -/
def State.holdLine (s : State) (p : PortId) : Bool :=
  (s.port p).state == .disabled || (s.port p).state == .fault || s.pool.held || (s.port p).resetMark || (s.port p).fifoHigh

/-- A frame in reception ends by loss of signal or by a new start delimiter (R15, R16, R23). -/
def Port.cutReception (q : Port) : Port :=
  match q.reception with
  | none => q
  | some (.accept _) | some .tooLong =>
    { q with reception := none, counters := { q.counters with truncated := satInc q.counters.truncated } }.afterRelease
  | some .spent => { q with reception := none }
  | some .discard =>
    { q with reception := none, counters := { q.counters with disabledDiscards := satInc q.counters.disabledDiscards } }
  | some .reset => { q with reception := none, counters := { q.counters with resetDiscards := satInc q.counters.resetDiscards } }

/-- Whether the frame in reception is an ACCEPT frame that is not spent (R7, R22). -/
def Port.accepting (q : Port) : Bool :=
  match q.reception with
  | some (.accept _) | some .tooLong => true
  | _ => false

/-- How many frames a disable or the start of DATAPATH_RESET discards: the untaken complete frames, and an ACCEPT frame in reception that is not spent (R7, R22). -/
def Port.discardable (q : Port) : Nat := q.complete.length + (if q.accepting then 1 else 0)

/-- Removes those frames: the frame in reception becomes spent, the taken frame stays (R7, R22). -/
def Port.discardFrames (q : Port) : Port :=
  { q with complete := [], reception := if q.accepting then some .spent else q.reception }.afterRelease

/-- A disable at the FPR (R7). -/
def Port.disable (q : Port) : Port :=
  { q.discardFrames with
    state := .disabled
    counters := { q.counters with disabledDiscards := satAdd q.counters.disabledDiscards q.discardable } }

/-- The start of DATAPATH_RESET at the FPR (R22). -/
def Port.resetStart (q : Port) : Port :=
  { q.discardFrames with
    resetMark := true
    counters := { q.counters with resetDiscards := satAdd q.counters.resetDiscards q.discardable } }

/-- The end of DATAPATH_RESET at the FPR (R23). -/
def Port.resetEnd (q : Port) : Port := { q with resetMark := false }

/-- An enable at the FPR (R6). -/
def Port.enable (q : Port) : Port := { q with state := if q.signal then .up else .down, badCount := 0 }

/-- The Classifier ends its work on the taken frame (R17). -/
def Port.release (q : Port) : Port := { q with taken := none }.afterRelease

/-- The frame a port offers: the oldest complete frame, when it has no taken frame (R17). -/
def Port.offer (q : Port) : Option (List Byte × Port) :=
  match q.taken, q.complete with
  | none, f :: rest => some (f, { q with taken := some f, complete := rest })
  | _, _ => none

/-- The reception mode that a start delimiter gives (R9, R23); none where no frame can start, in DOWN (R4). -/
def Port.startMode (q : Port) : Option Reception :=
  if q.resetMark then some .reset
  else
    match q.state with
    | .up => some (.accept [])
    | .disabled | .fault => some .discard
    | .down => none

/-! ## Stream Table (chapter 2) -/

/-- The bucket of a key (R27). -/
def Key.bucket (k : Key) : Nat := (k.station.toNat + 131 * k.tag.toNat + 8191 * k.port.val) % 512

/-- The stream numbers of a key's bucket, slot 0 first (R28). -/
def Key.slots (k : Key) : List StreamNo :=
  (List.finRange 4).map fun j => ⟨4 * k.bucket + j.val, by have := Nat.mod_lt (k.station.toNat + 131 * k.tag.toNat + 8191 * k.port.val) (show 0 < 512 by omega); unfold Key.bucket; omega⟩

/-- Whether a slot is occupied by an entry with this key (R33). -/
def StreamTable.holds (t : StreamTable) (k : Key) (n : StreamNo) : Bool :=
  match (t.slot n).entry with
  | some e => e.key == k
  | none => false

/-- The stream number of a key's entry (R33). -/
def StreamTable.find (t : StreamTable) (k : Key) : Option StreamNo := k.slots.find? (t.holds k)

/-- The lowest free slot of a key's bucket (R28). -/
def StreamTable.freeSlot (t : StreamTable) (k : Key) : Option StreamNo := k.slots.find? fun n => (t.slot n).entry.isNone

/-- The snapshot of an entry (R33): an absent decimation is 1. -/
def snapshotOf (n : StreamNo) (generation : BitVec 16) (e : StreamEntry) : Snapshot :=
  ⟨n, generation, e.cls, e.stale, e.urgent, e.decimation.getD 1, e.lastTimestamp, e.decimationCount⟩

/-- A slot takes an entry, and its generation advances (R31). -/
def StreamTable.write (t : StreamTable) (n : StreamNo) (e : Option StreamEntry) : StreamTable :=
  t.setSlot n ⟨(t.slot n).generation + 1, e⟩

/-- A lookup (R33): the snapshot of the key's entry, or a miss. -/
def StreamTable.lookup (t : StreamTable) (k : Key) : Option Snapshot :=
  match t.find k with
  | some n => (t.slot n).entry.map (snapshotOf n (t.slot n).generation)
  | none => none

/-- The answer of a learn insert (R35). -/
inductive LearnAnswer where
  | present (snap : Snapshot)
  | inserted (snap : Snapshot)
  | full
  deriving DecidableEq, Repr, Inhabited

/-- The entry a learn insert makes (R35). -/
def learnedEntry (k : Key) (cls : ClassId) (stale : StalePolicy) : StreamEntry :=
  { key := k, cls, decimation := none, stale, urgent := false, learned := true }

/-- A learn insert request (R35, R36); its event at a full bucket is raised by the caller. -/
def StreamTable.learn (t : StreamTable) (k : Key) (cls : ClassId) (stale : StalePolicy) : StreamTable × LearnAnswer :=
  match t.lookup k with
  | some snap => (t, .present snap)
  | none =>
    match t.freeSlot k with
    | some n =>
      ({ t.write n (some (learnedEntry k cls stale)) with learned := satInc t.learned },
        .inserted (snapshotOf n ((t.slot n).generation + 1) (learnedEntry k cls stale)))
    | none => ({ t with learnFailed := satInc t.learnFailed }, .full)

/-- The counters of an entry after an applied update (R32, R34). -/
def StreamEntry.count (e : StreamEntry) : UpdateOutcome → StreamEntry
  | .accepted => { e with accepted := satInc e.accepted }
  | .thinned => { e with thinned := satInc e.thinned }
  | .dropped => { e with dropped := satInc e.dropped }

/-- An entry after an applied update (R34): the values that are present, and the counter of the outcome. -/
def StreamEntry.update (e : StreamEntry) (u : UpdateRequest) : StreamEntry :=
  { e.count u.outcome with
    lastTimestamp := u.newTimestamp.or e.lastTimestamp
    decimationCount := u.newCount.getD e.decimationCount }

/-- An update request (R34): applied while the slot is occupied and holds the request's generation, discarded otherwise. -/
def StreamTable.update (t : StreamTable) (u : UpdateRequest) : StreamTable :=
  match (t.slot u.stream).entry with
  | some e =>
    if (t.slot u.stream).generation = u.generation then t.setSlot u.stream ⟨(t.slot u.stream).generation, some (e.update u)⟩ else t
  | none => t

/-- Phase 6 of DATAPATH_RESET (R45): every entry's dynamic state takes its initial values. -/
def StreamTable.clearDynamic (t : StreamTable) : StreamTable :=
  { t with slots := t.slots.map fun x => { x with entry := x.entry.map fun e => { e with lastTimestamp := none, decimationCount := 0 } } }

end Sys2Proof.Machine
end

