-- ==== Sys2Proof/Machine/LaneOps.lean ====
section
/-! DEFINITION. The shared operations of the Assemblers and LDUs: timers, close decision, handoff, placement, drain, discard, eligibility, and the parts of a lane update. -/

namespace Sys2Proof.Machine

/-! ## Timers (R101, R102, R130) -/

/-- A timer starts or restarts: its expiry is the device time of the event plus its limit, modulo 2^32. -/
def Timer.start (now : Word) (micros : Nat) : Timer := .running (now + BitVec.ofNat 32 micros) false

/-- The expiry of a running timer is reached: device time equals it, or has equalled it and the expiry was not taken since. -/
def Timer.due (t : Timer) (now : Word) : Bool :=
  match t with
  | .stopped => false
  | .running expiry reached => reached || expiry == now

/-- A timer when device time has become `now`. -/
def Timer.tick (t : Timer) (now : Word) : Timer :=
  match t with
  | .stopped => .stopped
  | .running expiry reached => .running expiry (reached || expiry == now)

/-- Device time has become `now` at a lane's three timers. -/
def Lane.tick (now : Word) (ln : Lane) : Lane :=
  { asm := { ln.asm with idle := ln.asm.idle.tick now, age := ln.asm.age.tick now }
    ldu := { ln.ldu with timer := ln.ldu.timer.tick now } }

/-! ## Bundles (R88, R91) -/

/-- A new empty bundle of a lane (R88, R90). -/
def Bundle.fresh (l : LaneId) : Bundle := { lane := l }

/-- The encoded size of a record: the value length plus 8 for a bound record, plus 16 for an unbound one (R91). -/
def PlacedRecord.size : PlacedRecord → Nat
  | .bound _ _ value => 8 + value.length
  | .unbound _ _ _ value => 16 + value.length

/-- The size of a bundle: 16 plus its payload bytes (R91). -/
def Bundle.size (b : Bundle) : Nat := Config.headerBytes + b.payload

/-- The close-pending flag (R89): set while a pending bundle is present. -/
def Lane.closePending (ln : Lane) : Bool := ln.asm.pendingB.isSome

/-- The records of the open bundle; none when there is no open bundle. -/
def Lane.openRecords (ln : Lane) : List PlacedRecord :=
  match ln.asm.openB with
  | some b => b.records
  | none => []

/-- The closed bundle that the Assembler offers to the LDU and that is not yet taken (R104). -/
def Lane.offered (ln : Lane) : Option Bundle :=
  match ln.asm.openB with
  | some b => if b.closeReason.isSome then some b else none
  | none => none

/-- Every bundle the lane holds: open, pending, ready, retained. -/
def Lane.bundles (ln : Lane) : List Bundle := ln.asm.openB.toList ++ ln.asm.pendingB.toList ++ ln.ldu.ready ++ ln.ldu.retention

/-! ## Closing and handing off (R104, R105) -/

/-- The counter of a close reason adds one (R104, R111). -/
def AssemblyCounters.countClose (c : AssemblyCounters) : CloseReason → AssemblyCounters
  | .count => { c with closeCount := satInc c.closeCount }
  | .fill => { c with closeFill := satInc c.closeFill }
  | .idle => { c with closeIdle := satInc c.closeIdle }
  | .age => { c with closeAge := satInc c.closeAge }
  | .urgent => { c with closeUrgent := satInc c.closeUrgent }
  | .flush => { c with closeFlush := satInc c.closeFlush }
  | .drain => { c with closeDrain := satInc c.closeDrain }

/-- A close decision (R104), made only on an open bundle that holds records and is not closed: the timers stop, the close time and reason are set, the reason's counter adds one, and the bundle stands offered. -/
def Lane.close (now : Word) (reason : CloseReason) (ln : Lane) : Lane :=
  match ln.asm.openB with
  | some b =>
    if b.records ≠ [] ∧ b.closeReason = none then
      { ln with asm := { ln.asm with
          openB := some { b with closeTime := some now, closeReason := some reason }
          idle := .stopped
          age := .stopped
          counters := ln.asm.counters.countClose reason } }
    else ln
  | none => ln

/-- The handoff of a bundle is taken whole at the LDU: accepted as READY under sequence C when the ready queue has room, and a new empty bundle opens (R104, R90); deferred as the pending bundle when it holds 32 (R105). -/
def Lane.handOff (l : LaneId) (ln : Lane) (b : Bundle) : Lane :=
  if ln.ldu.ready.length < Config.readyPlaces then
    { asm := { ln.asm with openB := some (Bundle.fresh l), pendingB := none }
      ldu := { ln.ldu with c := ln.ldu.c + 1, ready := ln.ldu.ready ++ [{ b with state := .ready, seq := some ln.ldu.c }] } }
  else
    { ln with asm := { ln.asm with openB := none, pendingB := some { b with state := .closePending } } }

/-- The handoff that is offered, if there is one, is taken (R104). An event that needs the Assembler's next bundle comes after it. -/
def Lane.settle (l : LaneId) (ln : Lane) : Lane :=
  match ln.offered with
  | some b => ln.handOff l b
  | none => ln

/-- A close decision and its handoff in one event, where the event's own rule needs the handoff's answer (R95, R106, R108). -/
def Lane.closeNow (l : LaneId) (now : Word) (reason : CloseReason) (ln : Lane) : Lane := (ln.close now reason).settle l

/-- A deferred handoff completes once a first send start has given the ready queue room (R105). -/
def Lane.completePending (l : LaneId) (ln : Lane) : Lane :=
  match ln.asm.pendingB with
  | some b => if ln.ldu.ready.length < Config.readyPlaces then ln.handOff l b else ln
  | none => ln

/-! ## Placement (R93 to R98) -/

/-- A placement request: the record in its encoded form, and whether it is of an urgent stream (R60). -/
structure PlacementRequest where
  record : PlacedRecord
  urgent : Bool
  deriving DecidableEq, Repr, Inhabited

/-- The answer to a placement request (R60). -/
inductive PlacementAnswer where
  | placed | laneDisabled | laneDraining | laneFull | poolEmpty
  deriving DecidableEq, Repr, Inhabited

/-- Changes a lane's assembly counters. -/
def State.countAsm (s : State) (l : LaneId) (f : AssemblyCounters → AssemblyCounters) : State :=
  s.setLane l { s.lane l with asm := { (s.lane l).asm with counters := f (s.lane l).asm.counters } }

/-- The answer LANE_FULL, with its count and its event (R94). -/
def State.answerLaneFull (s : State) (l : LaneId) : State × PlacementAnswer :=
  ((s.countAsm l fun c => { c with dropLaneFull := satInc c.dropLaneFull }).raise (srcLaneFullDrop l), .laneFull)

/-- Whether a record fits the open bundle (R95). -/
def Lane.fits (ln : Lane) (b : Bundle) (size : Nat) : Bool := decide (b.size + size ≤ ln.asm.config.maxBytes)

/-- The bundle choice of R95: a non-empty open bundle that the record does not fit closes with FILL, and its handoff is taken. -/
def Lane.makeRoom (l : LaneId) (now : Word) (size : Nat) (ln : Lane) : Lane :=
  match ln.asm.openB with
  | some b => if b.records ≠ [] ∧ ln.fits b size = false then ln.closeNow l now .fill else ln
  | none => ln

/-- The bundle that an append gives (R97). -/
def Bundle.append (b : Bundle) (now : Word) (r : PlacedRecord) (cells : Nat) : Bundle :=
  { b with
    records := b.records ++ [r]
    payload := b.payload + r.size
    cells := b.cells + cells
    openTime := if b.records = [] then some now else b.openTime }

/-- The lane after an append (R97, R101, R102): the bundle, the two timers and the two counters. -/
def Lane.append (now : Word) (ln : Lane) (b : Bundle) (r : PlacedRecord) (cells : Nat) : Lane :=
  { ln with asm := { ln.asm with
      openB := some (b.append now r cells)
      idle := if ln.asm.config.idleLimit = 0 then ln.asm.idle else Timer.start now (10 * ln.asm.config.idleLimit)
      age := if b.records = [] ∧ ln.asm.config.ageLimit ≠ 0 then Timer.start now (100 * ln.asm.config.ageLimit) else ln.asm.age
      counters := { ln.asm.counters with
        recordsPlaced := satInc ln.asm.counters.recordsPlaced
        bytesPlaced := satAdd ln.asm.counters.bytesPlaced r.size } } }

/-- The close check after an append (R98). -/
def Lane.closeCheck (now : Word) (urgent : Bool) (ln : Lane) : Lane :=
  if ln.asm.config.recordLimit ≤ ln.openRecords.length then ln.close now .count
  else if urgent then ln.close now .urgent
  else ln

/-- The last steps of a placement, into the open bundle (R96, R97, R98). -/
def State.placeInto (s : State) (l : LaneId) (b : Bundle) (q : PlacementRequest) : State × PlacementAnswer :=
  let need := cellsFor (b.payload + q.record.size) - b.cells
  match s.allocate need with
  | none => ((s.raise srcPoolEmptyDrop).countAsm l fun c => { c with dropPoolEmpty := satInc c.dropPoolEmpty }, .poolEmpty)
  | some s' =>
    (s'.setLane l (((s'.lane l).append s.deviceTime b q.record need).closeCheck s.deviceTime q.urgent), .placed)

/-- A placement, taken whole from the request to the answer (R93 to R98). -/
def State.place (s0 : State) (l : LaneId) (q : PlacementRequest) : State × PlacementAnswer :=
  let s := s0.setLane l ((s0.lane l).settle l)
  match (s.lane l).ldu.state with
  | .disabled => (s.countAsm l fun c => { c with dropDisabled := satInc c.dropDisabled }, .laneDisabled)
  | .draining => (s.countAsm l fun c => { c with dropDraining := satInc c.dropDraining }, .laneDraining)
  | .open | .stalled =>
    if (s.lane l).closePending then s.answerLaneFull l
    else
      let s' := s.setLane l ((s.lane l).makeRoom l s.deviceTime q.record.size)
      match (s'.lane l).asm.openB with
      | some b => s'.placeInto l b q
      | none => s'.answerLaneFull l

/-! ## The wire, and bundles that cease to exist (R77, R120) -/

/-- The on-wire flag of a bundle (R88): the outbound frame carries it, as a bundle its lane still retains or as a RELEASING one, whose flag stays set until its frame ends (R160, R162). -/
def State.onWire (s : State) (l : LaneId) (b : Bundle) : Bool :=
  match s.trunk.outbound with
  | some (.bundle l' _ (.retained q) _) => l' == l && b.state == .sent && b.seq == some q
  | some (.bundle l' _ (.releasing x) _) => l' == l && b == x
  | _ => false

/-- A bundle leaves its lane for good: on the wire it becomes RELEASING and passes to the Trunk Interface, off the wire its cells are freed at once (R77, R120, R139). -/
def State.discard (l : LaneId) (s : State) (b : Bundle) : State :=
  match s.trunk.outbound with
  | some (.bundle l' mode (.retained q) bytes) =>
    if l' = l ∧ b.seq = some q then
      { s with trunk := { s.trunk with outbound := some (.bundle l' mode (.releasing { b with state := .releasing }) bytes) } }
    else s.freeCells b.cells
  | _ => s.freeCells b.cells

/-- Every entry to DISABLED (R117): no bundle, the counters and the retry count zero, the flag clear, the timers stopped; the configurations and the counters of groups are kept. -/
def Lane.disabled (ln : Lane) : Lane :=
  { asm := { ln.asm with openB := none, pendingB := none, idle := .stopped, age := .stopped }
    ldu := { ln.ldu with
      state := .disabled, a := 0, r := 0, s := 0, c := 0, g := 0, ready := [], retention := [], timer := .stopped, retry := 0
      drainRequested := false } }

/-- A lane goes to DISABLED with everything it holds discarded (R109, R135, R139, R143). -/
def State.disableLane (s : State) (l : LaneId) : State :=
  let s' := (s.lane l).bundles.foldl (State.discard l) s
  s'.setLane l (s.lane l).disabled

/-- How many bundles LANE_RESET counts as discarded (R139): ready, retained and pending, and an open bundle that held records. -/
def Lane.discardCount (ln : Lane) : Nat :=
  ln.ldu.ready.length + ln.ldu.retention.length + ln.asm.pendingB.toList.length + (if ln.openRecords = [] then 0 else 1)

/-! ## Lane states (R108, R121, R134, R135) -/

/-- An entry to DRAINING (R134, R108): a non-empty open bundle closes with DRAIN and is handed off. -/
def Lane.enterDraining (l : LaneId) (now : Word) (ln : Lane) : Lane :=
  let ln' := ln.settle l
  ({ ln' with ldu := { ln'.ldu with state := .draining } } : Lane).closeNow l now .drain

/-- A STALLED lane leaves the stall (R121, R123): to DRAINING with the flag cleared when drain-requested is set, otherwise to OPEN. -/
def Lane.leaveStall (l : LaneId) (now : Word) (ln : Lane) : Lane :=
  match ln.ldu.state with
  | .stalled =>
    if ln.ldu.drainRequested then
      ({ ln with ldu := { ln.ldu with drainRequested := false } } : Lane).enterDraining l now
    else { ln with ldu := { ln.ldu with state := .open } }
  | .disabled | .open | .draining => ln

/-- The drain check's condition (R135). -/
def Lane.drained (ln : Lane) : Bool :=
  ln.ldu.state == .draining && ln.openRecords.isEmpty && ln.asm.pendingB.isNone && ln.ldu.ready.isEmpty && ln.ldu.retention.isEmpty

/-- The drain check (R135): an empty DRAINING lane goes to DISABLED, and LANE_DRAINED is queued. -/
def State.drainCheck (s : State) (l : LaneId) : State :=
  if (s.lane l).drained then (s.disableLane l).notify .laneDrained l else s

/-! ## The retransmit timer (R130) -/

/-- Where R130 lets the retransmit timer run. -/
def Lane.mayRun (linkUp : Bool) (ln : Lane) : Bool :=
  linkUp && (ln.ldu.state == .open || ln.ldu.state == .draining) && !ln.ldu.retention.isEmpty

/-- The timer starts or restarts where R130 allows it to run. -/
def Lane.startTimer (linkUp : Bool) (now : Word) (ln : Lane) : Lane :=
  if ln.mayRun linkUp then { ln with ldu := { ln.ldu with timer := Timer.start now (1000 * ln.ldu.config.timeoutMs) } } else ln

/-! ## Lane updates (R118 to R123) -/

/-- The ack's effects on the lane, when A advances (R120, R121): the bundles below the ack are the first of the retention list, because it holds A to S−1 in order (R115). -/
def Lane.ackAdvance (l : LaneId) (linkUp : Bool) (now : Word) (ack : SeqNo) (ln : Lane) : Lane :=
  let k := distance ln.ldu.a ack
  let moved : Lane := { ln with ldu := { ln.ldu with
      a := ack
      r := if isOlder ln.ldu.r ack then ack else ln.ldu.r
      retention := ln.ldu.retention.drop k
      retry := 0 } }
  let left := moved.leaveStall l now
  if left.ldu.retention.isEmpty then { left with ldu := { left.ldu with timer := .stopped } } else left.startTimer linkUp now

/-- A valid ack (R119, R120, R121); an ack equal to A changes nothing. -/
def State.applyAck (s : State) (l : LaneId) (ack : SeqNo) : State :=
  let ldu := (s.lane l).ldu
  if ack = ldu.a then s
  else
    let s' := (ldu.retention.take (distance ldu.a ack)).foldl (State.discard l) s
    s'.setLane l ((s.lane l).ackAdvance l s.trunk.linkUp s.deviceTime ack)

/-- A grant (R122): refused when older than S, taken when within W of A, clamped to A + W beyond. -/
inductive GrantOutcome where
  | refused | taken | clamped
  deriving DecidableEq, Repr, Inhabited

/-- How an LDU judges a grant (R122). -/
def Ldu.judgeGrant (u : Ldu) (grant : SeqNo) : GrantOutcome :=
  if isOlder grant u.s then .refused
  else if distance u.a grant ≤ u.config.window then .taken
  else .clamped

/-- G after a grant (R122). -/
def Ldu.afterGrant (u : Ldu) (grant : SeqNo) : Ldu :=
  match u.judgeGrant grant with
  | .refused => u
  | .taken => { u with g := grant }
  | .clamped => { u with g := u.a + BitVec.ofNat 16 u.config.window }

/-- The grant of an update (R122, R154). -/
def State.applyGrant (s : State) (l : LaneId) (grant : SeqNo) : State :=
  let ln := s.lane l
  let s' := s.setLane l { ln with ldu := ln.ldu.afterGrant grant }
  match ln.ldu.judgeGrant grant with
  | .clamped => s'.countTrunk fun c => { c with grantClamped := satInc c.grantClamped }
  | .refused | .taken => s'

/-- Whether X is a retained sequence (R123). -/
def Ldu.retains (u : Ldu) (x : SeqNo) : Bool := decide (distance u.a x < distance u.a u.s)

/-- A valid resend-from (R123). -/
def Lane.resendFrom (l : LaneId) (linkUp : Bool) (now : Word) (x : SeqNo) (ln : Lane) : Lane :=
  (({ ln with ldu := { ln.ldu with r := x, retry := 0 } } : Lane).leaveStall l now).startTimer linkUp now

/-- The resend-from of an update; an absent one is not examined, one not retained changes nothing (R123). -/
def State.applyResend (s : State) (l : LaneId) (x : Option SeqNo) : State :=
  match x with
  | some x => if (s.lane l).ldu.retains x then s.setLane l ((s.lane l).resendFrom l s.trunk.linkUp s.deviceTime x) else s
  | none => s

/-- Whether an update's resend-from is refused (R123). -/
def Ldu.refusesResend (u : Ldu) (x : Option SeqNo) : Bool :=
  match x with
  | some x => !u.retains x
  | none => false

/-- A refused update: UPDATE_REFUSED and the TRUNK_PROTOCOL event (R118, R154, R165). -/
def State.refuseUpdate (s : State) : State :=
  (s.countTrunk fun c => { c with updateRefused := satInc c.updateRefused }).raise srcTrunkProtocol

/-- An update applied by parts to a lane in service (R118): ack, grant, resend-from, then the drain check. An ack that is not valid refuses the whole update (R119). -/
def State.applyUpdate (s : State) (u : LaneUpdate) : State :=
  let ldu := (s.lane u.lane).ldu
  if distance ldu.a u.ack > distance ldu.a ldu.s then s.refuseUpdate
  else
    let s1 := s.applyAck u.lane u.ack
    let s2 := s1.applyGrant u.lane u.grant
    let s3 := s2.applyResend u.lane u.resendFrom
    let refused := decide ((s1.lane u.lane).ldu.judgeGrant u.grant = .refused) || (s2.lane u.lane).ldu.refusesResend u.resendFrom
    (if refused then s3.refuseUpdate else s3).drainCheck u.lane

/-! ## Sending (R124 to R127) -/

/-- A resend is waiting: R < S (R124). -/
def Ldu.resendWaiting (u : Ldu) : Bool := isNewer u.s u.r

/-- A first send is allowed and ready: S < C and S < G (R124). -/
def Ldu.firstSendReady (u : Ldu) : Bool := isNewer u.c u.s && isNewer u.g u.s

/-- A lane is eligible (R124). -/
def State.eligible (s : State) (l : LaneId) : Bool :=
  let u := (s.lane l).ldu
  (u.state == .open || u.state == .draining) && s.trunk.linkUp && (u.resendWaiting || u.firstSendReady)

/-- A first send at the lane (R126): the head of the ready queue joins the retention list as SENT, S and R advance, and a pending handoff completes. -/
def Lane.firstSend (l : LaneId) (linkUp : Bool) (now : Word) (ln : Lane) (b : Bundle) (rest : List Bundle) : Lane :=
  let sent : Lane := { ln with ldu := { ln.ldu with
      ready := rest
      retention := ln.ldu.retention ++ [{ b with state := .sent }]
      s := ln.ldu.s + 1
      r := ln.ldu.r + 1
      counters := { ln.ldu.counters with bundlesSent := satInc ln.ldu.counters.bundlesSent } } }
  (if ln.ldu.retention.isEmpty then sent.startTimer linkUp now else sent).completePending l

/-- A bundle after its resend count adds one, saturating at 15 (R127). -/
def Bundle.resent (b : Bundle) : Bundle := { b with resendCount := min 15 (b.resendCount + 1) }

/-- A resend at the lane (R127): the retained bundle at place k is sent again, and R advances. -/
def Lane.resend (ln : Lane) (k : Nat) (b : Bundle) : Lane :=
  { ln with ldu := { ln.ldu with
      r := ln.ldu.r + 1
      retention := ln.ldu.retention.set k b.resent
      counters := { ln.ldu.counters with bundlesResent := satInc ln.ldu.counters.bundlesResent } } }

/-- The bundle goes on the wire in mode SENDING, and its lane becomes the lane last served (R159, R205). -/
def State.startBundle (s : State) (l : LaneId) (seq : SeqNo) (b : Bundle) : State :=
  { s with trunk := { s.trunk with
      outbound := some (.bundle l .sending (.retained seq) (b.frame s.trunk.unit))
      lastServed := l } }

end Sys2Proof.Machine
end

