-- ==== Sys2Proof/Machine/TrunkOps.lean ====
section
/-! DEFINITION. The shared operations of the Management Unit and the Trunk Interface: ending a command, the transmit arbiter, the send start, the end of bundle frames, the phases of DATAPATH_RESET that other events end, and the beginning of a command's execution. -/

namespace Sys2Proof.Machine

/-! ## DATAPATH_RESET in execution (R179) -/

/-- The progress is that of a DATAPATH_RESET that passed its checks: from its first phase to its response. -/
def Progress.ofReset : Progress → Bool
  | .done _ | .reading _ _ _ => false
  | .abandoning | .phase3Due | .cutting _ | .phase4Due _ | .resetDone _ => true

/-- A DATAPATH_RESET is in execution, from its first phase until its response is placed (R179). -/
def State.resetInExecution (s : State) : Bool :=
  match s.mu.executing with
  | some x => x.progress.ofReset
  | none => false

/-- Changes the progress of the command in execution. -/
def Mu.setProgress (m : Mu) (p : Progress) : Mu := { m with executing := m.executing.map fun x => { x with progress := p } }

/-- The Classifier reports the abandon done: phase 2 ends, and phase 3 is due (R72, R180). -/
def Mu.abandonDone (m : Mu) : Mu :=
  match m.executing with
  | some ⟨_, .abandoning⟩ => m.setProgress .phase3Due
  | _ => m

/-- The cut frame has ended: phase 3 ends, and phase 4 is due (R163, R182). -/
def Mu.cutEnded (m : Mu) : Mu :=
  match m.executing with
  | some ⟨_, .cutting aborted⟩ => m.setProgress (.phase4Due aborted)
  | _ => m

/-! ## Responses and the end of a command (R157, R176) -/

/-- The response that the command in execution has ready (R176). -/
def Mu.readyResponse (m : Mu) : Option (Command × Response) :=
  match m.executing with
  | some ⟨c, .done r⟩ => some (c, r)
  | some ⟨c, .resetDone r⟩ => some (c, r)
  | _ => none

/-- A response joins the tail of the response queue; while the link is DOWN it is discarded at once (R149, R157). -/
def Trunk.placeResponse (t : Trunk) (r : Response) : Trunk :=
  if t.linkUp then { t with responses := t.responses ++ [r] } else t

/-- A command ends (R176): its response is placed, the last-completed record takes it, COMMANDS_DONE adds one, and no command is in execution. -/
def State.endCommand (s : State) (c : Command) (r : Response) : State :=
  { s with
    trunk := s.trunk.placeResponse r
    mu := { s.mu with
      executing := none
      last := some ⟨c.epoch, c.seq, r⟩
      commandsDone := satInc s.mu.commandsDone } }

/-- The start of the response at the head of the queue frees its place, and a command that waited at its end for room places its response in the same event (R157, R176). -/
def State.startResponse (s : State) (r : Response) (rest : List Response) : State :=
  let s' : State := { s with trunk := { s.trunk with responses := rest, outbound := some (.response r (r.frame s.trunk.unit)) } }
  if rest.length + 1 < Config.responsePlaces then s'
  else
    match s.mu.readyResponse with
    | some (c, r') => s'.endCommand c r'
    | none => s'

/-! ## The transmit arbiter (R158, R159) -/

/-- The lanes in the arbiter's order: lane last served + 1, then + 2, and so on modulo 16 (R159). -/
def servingOrder (lastServed : LaneId) : List LaneId := (List.finRange 16).map fun k => lastServed + 1 + k

/-- The lane the arbiter chooses: the first eligible one (R159). -/
def State.nextLane (s : State) : Option LaneId := (servingOrder s.trunk.lastServed).find? s.eligible

/-- Whether the arbiter may choose: the wire is free, the link is UP, and no request of it is waiting for its answer (R158). -/
def Trunk.mayChoose (t : Trunk) : Bool := t.outbound.isNone && t.linkUp && (t.request == .none)

/-- A session is OPEN (R166). -/
def State.sessionOpen (s : State) : Bool := s.mu.epoch.isSome

/-- The arbiter's choice (R158, R159): the response at the head of the queue starts; else the Notice Unit is asked for a batch; else the first eligible lane is sent a send start request, but for a DATAPATH_RESET in execution. -/
def State.arbitrate (s : State) : State :=
  if s.trunk.mayChoose then
    match s.trunk.responses with
    | r :: rest => s.startResponse r rest
    | [] =>
      if s.sessionOpen && !s.notices.queue.isEmpty then { s with trunk := { s.trunk with request := .batch } }
      else if s.resetInExecution then s
      else
        match s.nextLane with
        | some l => { s with trunk := { s.trunk with request := .sendStart l } }
        | none => s
  else s

/-- A send start request, taken whole at the LDU (R125, R126, R127): none is the answer NONE. No bundle frame is started while a DATAPATH_RESET executes (R163), nor while the wire is busy (R156). -/
def State.sendStartAt (s : State) (l : LaneId) : Option State :=
  let ln := s.lane l
  if s.trunk.outbound.isSome || s.resetInExecution || !s.eligible l then none
  else if ln.ldu.resendWaiting then
    match ln.ldu.retention[distance ln.ldu.a ln.ldu.r]? with
    | some b => some ((s.setLane l (ln.resend (distance ln.ldu.a ln.ldu.r) b)).startBundle l ln.ldu.r b.resent)
    | none => none
  else if ln.ldu.r = ln.ldu.s then
    match ln.ldu.ready with
    | b :: rest => some ((s.setLane l (ln.firstSend l s.trunk.linkUp s.deviceTime b rest)).startBundle l ln.ldu.s b)
    | [] => none
  else none

/-! ## The end of a bundle frame (R77, R160, R162) -/

/-- The wire is freed, and a RELEASING bundle's cells return to the pool; a retained one keeps its cells and loses its on-wire flag, which is the frame itself (R160, R162, R149). -/
def State.clearWire (s : State) : State :=
  let s' : State := { s with trunk := { s.trunk with outbound := none } }
  match s.trunk.outbound with
  | some (.bundle _ _ (.releasing b) _) => s'.freeCells b.cells
  | _ => s'

/-- A cut of the bundle frame on the wire (R161, R162): mode SENDING becomes CUTTING and ABORTS adds one at the frame's lane; a frame already in CUTTING is left. -/
def State.cutFrame (s : State) : State :=
  match s.trunk.outbound with
  | some (.bundle l .sending carried bytes) =>
    let ln := s.lane l
    { s with trunk := { s.trunk with outbound := some (.bundle l .cutting carried bytes) } }.setLane l
      { ln with ldu := { ln.ldu with counters := { ln.ldu.counters with aborts := satInc ln.ldu.counters.aborts } } }
  | _ => s

/-- Whether a bundle frame in mode SENDING is on the wire, of a lane if one is named. -/
def Trunk.sendingBundle (t : Trunk) (l : Option LaneId) : Bool :=
  match t.outbound with
  | some (.bundle l' .sending _ _) => match l with
    | some l => l' == l
    | none => true
  | _ => false

/-- Whether a bundle frame is on the wire, in either mode. -/
def Trunk.bundleOnWire (t : Trunk) : Bool :=
  match t.outbound with
  | some (.bundle _ _ _ _) => true
  | _ => false

/-! ## The Classifier's record boundary (R50, R72) -/

/-- The Classifier ends its frame (R17, R50, R72): the port releases it, and an abandon request is cleared and reported done. -/
def State.endFrame (s : State) (f : FrameInProgress) : State :=
  let s1 := s.setPort f.port (s.port f.port).release
  let s2 : State := { s1 with classifier := { s1.classifier with frame := none, abandon := false } }
  if s.classifier.abandon then { s2 with mu := s2.mu.abandonDone } else s2

/-- A record begins (R50): RECORDS_SEEN adds one at the frame's port, and the record goes to the lookup stage. -/
def State.beginRecord (s : State) (f : FrameInProgress) (index : Nat) : State :=
  ({ s with classifier := { s.classifier with frame := some { f with index, stage := .lookup } } } : State).countPort f.port
    fun c => { c with recordsSeen := satInc c.recordsSeen }

/-- The record in progress ends (R50, R72): at the boundary the next record begins, unless the frame has none left or its abandon is requested. -/
def State.recordEnds (s : State) (f : FrameInProgress) : State :=
  if s.classifier.abandon || decide (f.records.length ≤ f.index + 1) then s.endFrame f else s.beginRecord f (f.index + 1)

/-- The record in progress reaches a stage. -/
def State.setStage (s : State) (f : FrameInProgress) (stage : Stage) : State :=
  { s with classifier := { s.classifier with frame := some { f with stage } } }

/-! ## The beginning of a command's execution (R173 to R176) -/

/-- What a command needs of the session (R175, 8.7). -/
inductive SessionNeed where
  | exempt | readOnly | matching
  deriving DecidableEq, Repr, Inhabited

/-- The session check (R175): none when it passes, else the status of the refusal. -/
def sessionCheck (need : SessionNeed) (epoch : Word) (current : Option Word) : Option Status :=
  match need with
  | .exempt => none
  | .readOnly =>
    if epoch = 0 ∨ current = some epoch then none
    else match current with
      | none => some .noSession
      | some _ => some .staleEpoch
  | .matching =>
    if current = some epoch then none
    else match current with
      | none => some .noSession
      | some _ => some .staleEpoch

/-- The response a command forms (R177). -/
def Command.respond (c : Command) (status : Status) (result : List Byte) : Response := ⟨c.seq, c.code, status, false, result⟩

/-- The effect of the command in execution, or its refusal, is taken and its response is ready (R176). -/
def State.finish (s : State) (c : Command) (status : Status) (result : List Byte) : State :=
  { s with mu := { s.mu with executing := some ⟨c, .done (c.respond status result)⟩ } }

/-- The beginning of an execution (R173): with no command in execution, the oldest command leaves the head of the queue. `mine` says which command codes the event is for. -/
def State.beginCommand (s : State) (mine : Byte → Bool) : Option (Command × State) :=
  match s.mu.executing, s.mu.queue with
  | none, c :: rest => if mine c.code then some (c, { s with mu := { s.mu with queue := rest } }) else none
  | _, _ => none

/-- A command of the index begins execution (R174): its parameters are read, its session check is made, and a command that passes goes on to its own effect. -/
def State.runCommand {α : Type} (s : State) (code : Byte) (parse : List Byte → Option α) (need : α → SessionNeed)
    (effect : State → Command → α → State) : State :=
  match s.beginCommand (· == code) with
  | none => s
  | some (c, s') =>
    match parse c.params with
    | none => s'.finish c .badLength []
    | some a =>
      match sessionCheck (need a) c.epoch s'.mu.epoch with
      | some status => s'.finish c status []
      | none => effect s' c a

end Sys2Proof.Machine
end

