-- ==== Sys2Proof/Machine/Classify.lean ====
section
/-! DEFINITION. The meanings of the Record Classifier's events (chapter 3), with the requests they make of the Stream Table (chapter 2) and the Assembler (chapter 5). -/

namespace Sys2Proof.Machine

/-! ## Taking a frame (R48, R49) -/

/-- The ports in the order of the search: position, position + 1, and so on to 7, then from 0 upward (R48). -/
def searchOrder (position : PortId) : List PortId := (List.finRange 8).map fun k => position + k

/-- The first offering port (R48). -/
def State.offering (s : State) : Option PortId := (searchOrder s.classifier.position).find? fun p => (s.port p).offer.isSome

/-- The IDLE Classifier takes the offered frame of the first offering port and checks its structure (R48, R49, R50): a MALFORMED frame ends at once, a sound one begins its first record. -/
def State.takeFrame (s : State) : State :=
  match s.classifier.frame, s.offering with
  | none, some p =>
    match (s.port p).offer with
    | some (bytes, q) =>
      let s1 : State := { s.setPort p q with classifier := { s.classifier with position := p + 1 } }
      match parseFieldFrame bytes with
      | some (station, records) => s1.beginRecord { port := p, station, records } 0
      | none =>
        let s2 := s1.countPort p fun c => { c with malformed := satInc c.malformed }
        s2.setPort p (s2.port p).release
    | none => s
  | _, _ => s

/-- FRAME_TAKE (R48, R49). -/
def execFrameTake (s : State) : Host.Outcome State Fault Refusal := running State.takeFrame s

/-! ## The stages -/

/-- The current record of the frame in progress (R47). -/
def FrameInProgress.record (f : FrameInProgress) : Option FieldRecord := f.records[f.index]?

/-- The key of a record of the frame (R51). -/
def FrameInProgress.key (f : FrameInProgress) (r : FieldRecord) : Key := ⟨f.port, f.station, r.tag⟩

/-- How the stale check ends (R56). -/
inductive StaleVerdict where
  | passes | stale | duplicate
  deriving DecidableEq, Repr, Inhabited

/-- The stale check of a timestamp against the last timestamp, under a policy (R56). -/
def staleCheck (policy : StalePolicy) (last : Option Word) (ts : Word) : StaleVerdict :=
  match last with
  | none => .passes
  | some t =>
    match policy with
    | .keep => .passes
    | .dropOlder => if isOlder ts t then .stale else .passes
    | .dropNotNewer => if isNewer ts t then .passes else if ts = t then .duplicate else .stale

/-- The update request of a hit record (R61). -/
def updateOf (snap : Snapshot) (outcome : UpdateOutcome) (ts : Option Word) (count : Option Nat) : UpdateRequest :=
  ⟨snap.stream, snap.generation, outcome, ts, count⟩

/-- The stale check and decimation of a hit record, from its snapshot (R56, R57): dropped STALE or DUPLICATE, thinned, or on to lane resolution. -/
def State.judgeHit (s : State) (f : FrameInProgress) (snap : Snapshot) (r : FieldRecord) : State :=
  match staleCheck snap.stale snap.lastTimestamp r.timestamp with
  | .stale =>
    { s with classifier := { s.classifier with staleDrops := satInc s.classifier.staleDrops } }.setStage f
      (.update (updateOf snap .dropped none none))
  | .duplicate =>
    { s with classifier := { s.classifier with duplicateDrops := satInc s.classifier.duplicateDrops } }.setStage f
      (.update (updateOf snap .dropped none none))
  | .passes =>
    let count := (snap.decimationCount + 1) % snap.decimation
    if snap.decimationCount = 0 then s.setStage f (.resolve (.bound snap r.timestamp count))
    else
      { s with classifier := { s.classifier with thinned := satInc s.classifier.thinned } }.setStage f
        (.update (updateOf snap .thinned (some r.timestamp) (some count)))

/-- The lookup stage (R33, R51): a hit goes to the stale check with its snapshot, a miss to the rule search. -/
def State.lookupStage (s : State) : State :=
  match s.classifier.frame with
  | some f =>
    match f.stage, f.record with
    | .lookup, some r =>
      match s.streams.lookup (f.key r) with
      | some snap => s.judgeHit f snap r
      | none => s.setStage f .ruleSearch
    | _, _ => s
  | none => s

/-- LOOKUP (R33, R51, R56, R57). -/
def execLookup (s : State) : Host.Outcome State Fault Refusal := running State.lookupStage s

/-- A rule matches a record (R52): its port set has the port, and station id and channel tag agree with the values where the masks have a one. -/
def Rule.isMatch (rule : Rule) (k : Key) : Bool :=
  rule.portSet.getLsbD k.port.val
    && (k.station &&& rule.stationMask) == (rule.stationValue &&& rule.stationMask)
    && (k.tag &&& rule.tagMask) == (rule.tagValue &&& rule.tagMask)

/-- The rule search: the first valid matching rule of the active list (R52). -/
def RuleSet.search (rs : RuleSet) (k : Key) : Option RuleIndex :=
  (List.finRange 64).find? fun i => rs.active[i].valid && rs.active[i].isMatch k

/-- The rule search stage (R52, R53, R55): NO_MATCH and RULE_DROP end the record; a PLACE rule goes to the learn stage with learn, to lane resolution without. -/
def State.searchStage (s : State) : State :=
  match s.classifier.frame with
  | some f =>
    match f.stage, f.record with
    | .ruleSearch, some r =>
      match s.rules.search (f.key r) with
      | none =>
        (((s.countPort f.port fun c => { c with noMatch := satInc c.noMatch }).raise (srcUnmatched f.port)).recordEnds f).arbitrate
      | some i =>
        let rule := s.rules.active[i]
        match rule.action with
        | .drop => (s.countPort f.port fun c => { c with ruleDrops := satInc c.ruleDrops }).recordEnds f
        | .place =>
          if rule.learn then s.setStage f (.learn i rule.cls rule.stale) else s.setStage f (.resolve (.unbound i rule.cls))
    | _, _ => s
  | none => s

/-- RULE_SEARCH (R52, R53, R55). -/
def execRuleSearch (s : State) : Host.Outcome State Fault Refusal := running State.searchStage s

/-- The learn stage (R35, R36, R54): INSERTED and PRESENT go on as a hit, FULL as unbound. -/
def State.learnStage (s : State) : State :=
  match s.classifier.frame with
  | some f =>
    match f.stage, f.record with
    | .learn i cls stale, some r =>
      let x := s.streams.learn (f.key r) cls stale
      let s' : State := { s with streams := x.1 }
      match x.2 with
      | .present snap | .inserted snap => s'.judgeHit f snap r
      | .full => ((s'.raise srcLearnFailed).setStage f (.resolve (.unbound i cls))).arbitrate
    | _, _ => s
  | none => s

/-- LEARN_INSERT (R35, R36, R54, R56, R57). -/
def execLearnInsert (s : State) : Host.Outcome State Fault Refusal := running State.learnStage s

/-- The spread fold of a station id under a salt (R59): the sum's four 6-bit groups added modulo 64. -/
def spreadFold (station salt : Station) : Nat :=
  let x := station + salt
  ((x.extractLsb' 18 6).toNat + (x.extractLsb' 12 6).toNat + (x.extractLsb' 6 6).toNat + (x.extractLsb' 0 6).toNat) % 64

/-- The spread entry at an index; there is none past 63. -/
def ClassMap.spreadAt (m : ClassMap) (i : Nat) : Option LaneId := if h : i < 64 then m.spread[i] else none

/-- What a lane resolution answers (R58). -/
inductive Resolution where
  | lane (l : LaneId)
  | classUnset
  | noLane
  deriving DecidableEq, Repr, Inhabited

/-- Lane resolution, taken whole at the Class Table and Spread Table (R58, R59). -/
def ClassMap.resolve (m : ClassMap) (cls : ClassId) (station : Station) : Resolution :=
  match m.classes[cls] with
  | .unset => .classUnset
  | .fixed l => .lane l
  | .spread base size =>
    match m.spreadAt (base + spreadFold station m.salt % size) with
    | some l => .lane l
    | none => .noLane

/-- The class a record resolves (R51, R55). -/
def Route.cls : Route → ClassId
  | .bound snap _ _ => snap.cls
  | .unbound _ cls => cls

/-- A record ends at lane resolution or placement: a hit goes to its update with the outcome and both new values, an unbound record ends (R58, R60, R61). -/
def State.routeEnds (s : State) (f : FrameInProgress) (route : Route) (outcome : UpdateOutcome) : State :=
  match route with
  | .bound snap ts count => s.setStage f (.update (updateOf snap outcome (some ts) (some count)))
  | .unbound _ _ => s.recordEnds f

/-- The lane resolution stage (R58). -/
def State.resolveStage (s : State) : State :=
  match s.classifier.frame with
  | some f =>
    match f.stage with
    | .resolve route =>
      match s.map.resolve route.cls f.station with
      | .lane l => s.setStage f (.place route l)
      | .classUnset =>
        ({ s with classifier := { s.classifier with classUnsetDrops := satInc s.classifier.classUnsetDrops } } : State).routeEnds f
          route .dropped
      | .noLane =>
        ({ s with classifier := { s.classifier with noLaneDrops := satInc s.classifier.noLaneDrops } } : State).routeEnds f route
          .dropped
    | _ => s
  | none => s

/-- LANE_RESOLUTION (R58, R59). -/
def execLaneResolution (s : State) : Host.Outcome State Fault Refusal := running State.resolveStage s

/-- The placement request of a record (R60). -/
def Route.request (route : Route) (k : Key) (r : FieldRecord) : PlacementRequest :=
  match route with
  | .bound snap _ _ => ⟨.bound snap.stream r.timestamp r.value, snap.urgent⟩
  | .unbound i _ => ⟨.unbound k i r.timestamp r.value, false⟩

/-- The outcome that a placement answer gives a hit record (R61). -/
def PlacementAnswer.outcome : PlacementAnswer → UpdateOutcome
  | .placed => .accepted
  | .laneDisabled | .laneDraining | .laneFull | .poolEmpty => .dropped

/-- The placement stage (R60, R93): the Assembler's answer, then the update or the record's end. -/
def State.placeStage (s : State) : State :=
  match s.classifier.frame with
  | some f =>
    match f.stage, f.record with
    | .place route l, some r =>
      let x := s.place l (route.request (f.key r) r)
      (x.1.routeEnds f route x.2.outcome).arbitrate
    | _, _ => s
  | none => s

/-- PLACEMENT (R60, R93 to R98). -/
def execPlacement (s : State) : Host.Outcome State Fault Refusal := running State.placeStage s

/-- The update stage (R34, R61): the update is taken, and the record ends. -/
def State.updateStage (s : State) : State :=
  match s.classifier.frame with
  | some f =>
    match f.stage with
    | .update u => ({ s with streams := s.streams.update u } : State).recordEnds f
    | _ => s
  | none => s

/-- STREAM_UPDATE (R34, R50, R61, R72). -/
def execStreamUpdate (s : State) : Host.Outcome State Fault Refusal := running State.updateStage s

end Sys2Proof.Machine
end

