-- ==== Sys2Proof/Machine/FieldPorts.lean ====
section
/-! DEFINITION. The meanings of the field line events and of PORT_SET (chapter 1). -/

namespace Sys2Proof.Machine

/-- The line of a port gains signal (R4): the indication becomes present, and a DOWN port moves to UP. -/
def Port.gainSignal (q : Port) : Port := { q with signal := true, state := if q.state = .down then .up else q.state }

/-- The line of a port loses signal (R4, R15): a frame in reception ends, the indication becomes absent, and an UP port moves to DOWN. -/
def Port.loseSignal (q : Port) : Port :=
  let q' := q.cutReception
  { q' with signal := false, state := if q.state = .up then .down else q.state }

/-- A change of signal on a field line, and at its port. The indication follows the line while RESET_N is low too, because it follows the line from the release (R5, assumption 18). -/
def State.lineChanges (s : State) (p : PortId) (signal : Bool) : State :=
  (s.setLine p signal).setPort p (if signal then (s.port p).gainSignal else (s.port p).loseSignal)

/-- LINE_SIGNAL_GAINED (R4). -/
def execLineSignalGained (p : Nat) (s : State) : Host.Outcome State Fault Refusal :=
  if h : p < 8 then .next (s.lineChanges ⟨p, h⟩ true) else .fault .noSuchPort

/-- LINE_SIGNAL_LOST (R4, R15). -/
def execLineSignalLost (p : Nat) (s : State) : Host.Outcome State Fault Refusal :=
  if h : p < 8 then .next (s.lineChanges ⟨p, h⟩ false) else .fault .noSuchPort

/-- A start delimiter at a port (R9): the frame in reception ends, and a new one begins in the mode that the reset and the port state give. -/
def Port.startFrame (q : Port) : Port :=
  match q.startMode with
  | some mode => { q.cutReception with reception := some mode }
  | none => q

/-- FIELD_START_DELIMITER (R9, R15, R16, R23). -/
def execFieldStartDelimiter (p : Nat) (s : State) : Host.Outcome State Fault Refusal :=
  onPort p (fun p s => s.setPort p (s.port p).startFrame) s

/-- The 1025th byte of an ACCEPT frame (R12): the frame leaves the FIFO and is marked too long. -/
def Port.markTooLong (q : Port) : Port := { q with reception := some .tooLong }.afterRelease

/-- A byte that finds the FIFO full (R11): the frame leaves the FIFO and is spent, and OVERFLOWS adds one. -/
def Port.overflow (q : Port) : Port :=
  { q with reception := some .spent, counters := { q.counters with overflows := satInc q.counters.overflows } }.afterRelease

/-- A byte is stored (R10, R20). -/
def Port.storeByte (q : Port) (bytes : List Byte) (b : Byte) : Port := { q with reception := some (.accept (bytes ++ [b])) }.afterStore

/-- A byte arrives at a port (R9 to R12): the too-long check comes before the space check, and the bytes of any other frame are ignored. -/
def State.fieldByte (s : State) (p : PortId) (b : Byte) : State :=
  let q := s.port p
  match q.reception with
  | some (.accept bytes) =>
    if Config.frameMaxBytes ≤ bytes.length then s.setPort p q.markTooLong
    else if Config.fifoBytes ≤ q.fill then ((s.setPort p q.overflow).raise (srcIngressOverflow p)).arbitrate
    else s.setPort p (q.storeByte bytes b)
  | _ => s

/-- FIELD_BYTE_ARRIVAL (R9 to R12, R20). -/
def execFieldByteArrival (p : Nat) (b : Byte) (s : State) : Host.Outcome State Fault Refusal :=
  onPort p (fun p s => s.fieldByte p b) s

/-- A frame that fails its length or frame check is removed and raises the consecutive-bad count, which at 16 puts the port in FAULT (R13, R18). -/
def Port.badFrame (q : Port) (f : PortCounters → PortCounters) : Port :=
  { q with
    reception := none
    badCount := q.badCount + 1
    state := if q.badCount + 1 = Config.badFrameLimit then .fault else q.state
    counters := f q.counters }.afterRelease

/-- A frame whose length and frame check are sound but whose kind is not DATA is removed and clears the count (R13). -/
def Port.unknownFrame (q : Port) : Port :=
  { q with
    reception := none
    badCount := 0
    counters := { q.counters with unknownKind := satInc q.counters.unknownKind } }.afterRelease

/-- A good frame is complete, at the place it already holds (R13). -/
def Port.goodFrame (q : Port) (bytes : List Byte) : Port :=
  { q with
    reception := none
    complete := q.complete ++ [bytes]
    badCount := 0
    counters := { q.counters with framesOk := satInc q.counters.framesOk } }

/-- The frame kind of a field frame (R200). -/
def fieldKind (bytes : List Byte) : Option Byte := bytes[3]?

/-- The port after a frame that failed check 1 or 2, and whether it entered FAULT (R18). -/
def State.badFrameEnds (s : State) (p : PortId) (f : PortCounters → PortCounters) : State :=
  let s' := s.setPort p ((s.port p).badFrame f)
  if (s.port p).badCount + 1 = Config.badFrameLimit then (s'.raise (srcPortFault p)).arbitrate else s'

/-- An end delimiter at a port (R13, R16, R23): an ACCEPT frame that is not spent is judged by length, frame check and kind. -/
def State.fieldEnd (s : State) (p : PortId) : State :=
  let q := s.port p
  match q.reception with
  | none => s
  | some .tooLong => s.badFrameEnds p fun c => { c with lengthErrors := satInc c.lengthErrors }
  | some (.accept bytes) =>
    if bytes.length < Config.frameMinBytes ∨ Config.frameMaxBytes < bytes.length then
      s.badFrameEnds p fun c => { c with lengthErrors := satInc c.lengthErrors }
    else if checkCorrect bytes = false then s.badFrameEnds p fun c => { c with checkErrors := satInc c.checkErrors }
    else if fieldKind bytes ≠ some kindData then s.setPort p q.unknownFrame
    else s.setPort p (q.goodFrame bytes)
  | some .spent => s.setPort p { q with reception := none }
  | some .discard =>
    s.setPort p { q with reception := none, counters := { q.counters with disabledDiscards := satInc q.counters.disabledDiscards } }
  | some .reset =>
    s.setPort p { q with reception := none, counters := { q.counters with resetDiscards := satInc q.counters.resetDiscards } }

/-- FIELD_END_DELIMITER (R13, R16, R18, R23). -/
def execFieldEndDelimiter (p : Nat) (s : State) : Host.Outcome State Fault Refusal :=
  onPort p (fun p s => s.fieldEnd p) s

/-- PORT_SET's own judgement and effect (R6, R7). -/
def State.portSet (s : State) (c : Command) (a : PortSetParams) : State :=
  match portOf a.port with
  | none => s.finish c .badRange []
  | some p =>
    let q := s.port p
    if a.enable then
      match q.state with
      | .disabled | .fault => (s.setPort p q.enable).finish c .ok (enc8 q.enable.state.code)
      | .down | .up => s.finish c .already (enc8 q.state.code)
    else
      match q.state with
      | .disabled => s.finish c .already (enc8 q.state.code)
      | .down | .up | .fault => (s.setPort p q.disable).finish c .ok (enc8 q.disable.state.code)

/-- PORT_SET begins execution (R6, R7, R173 to R176). -/
def execPortSet (s : State) : Host.Outcome State Fault Refusal :=
  running (fun s => s.runCommand Code.portSet (readWhole readPortSet) (fun _ => .matching) State.portSet) s

end Sys2Proof.Machine
end

