-- ==== Sys2Proof/Machine/Lanes.lean ====
section
/-! DEFINITION. The meanings of the lane events and of the lane commands (chapters 5 and 6). -/

namespace Sys2Proof.Machine

/-! ## Assembler events -/

/-- HANDOFF (R104, R105): the LDU takes the bundle that the Assembler offers; with none offered there is nothing to take. -/
def execHandoff (l : Nat) (s : State) : Host.Outcome State Fault Refusal :=
  onLane l (fun l s => if (s.lane l).offered.isSome then (s.setLane l ((s.lane l).settle l)).arbitrate else s) s

/-- IDLE_TIMER_EXPIRY (R101, R103): the expiry of the idle timer's present run, once reached, closes the open bundle with IDLE. -/
def execIdleTimerExpiry (l : Nat) (s : State) : Host.Outcome State Fault Refusal :=
  onLane l (fun l s => if (s.lane l).asm.idle.due s.deviceTime then s.setLane l ((s.lane l).close s.deviceTime .idle) else s) s

/-- AGE_TIMER_EXPIRY (R102, R103): the expiry of the age timer's present run, once reached, closes the open bundle with AGE. -/
def execAgeTimerExpiry (l : Nat) (s : State) : Host.Outcome State Fault Refusal :=
  onLane l (fun l s => if (s.lane l).asm.age.due s.deviceTime then s.setLane l ((s.lane l).close s.deviceTime .age) else s) s

/-! ## LDU events -/

/-- The oldest lane update in flight is taken at its LDU, once no command handed on before it has yet to arrive (R155): discarded whole while a DATAPATH_RESET is in execution, ignored whole by a DISABLED lane, applied by parts otherwise. -/
def State.takeUpdate (s : State) : State :=
  match s.trunk.handed with
  | [] | .arrival _ :: _ => s
  | .update u :: rest =>
    let s' : State := { s with trunk := { s.trunk with handed := rest } }
    if s.resetInExecution then s'.countTrunk fun c => { c with updatesDiscardedReset := satInc c.updatesDiscardedReset }
    else
      match (s.lane u.lane).ldu.state with
      | .disabled => s'.countTrunk fun c => { c with updateIdleLane := satInc c.updateIdleLane }
      | .open | .draining | .stalled => (s'.applyUpdate u).arbitrate

/-- LANE_UPDATE (R118 to R123, R135). -/
def execLaneUpdate (s : State) : Host.Outcome State Fault Refusal := running State.takeUpdate s

/-- The arbiter's send start request is taken (R125, R159): a bundle goes on the wire, or the answer NONE lets the arbiter choose again at once. -/
def State.takeSendStart (s : State) : State :=
  match s.trunk.request with
  | .sendStart l =>
    let s' : State := { s with trunk := { s.trunk with request := .none } }
    match s'.sendStartAt l with
    | some t => t
    | none => s'.arbitrate
  | .none | .batch => s

/-- SEND_START (R125, R126, R127, R159, R205). -/
def execSendStart (s : State) : Host.Outcome State Fault Refusal := running State.takeSendStart s

/-- A retransmit expiry at the lane, and whether it stalled the lane (R131). -/
def Lane.expire (linkUp : Bool) (now : Word) (ln : Lane) : Lane × Bool :=
  let counted : Ldu := { ln.ldu with
    retry := ln.ldu.retry + 1
    counters := { ln.ldu.counters with retransmitExpiries := satInc ln.ldu.counters.retransmitExpiries } }
  if ln.ldu.retry + 1 ≤ ln.ldu.config.retryLimit then
    (({ ln with ldu := { counted with r := ln.ldu.a } } : Lane).startTimer linkUp now, false)
  else
    ({ ln with ldu := { counted with
        state := .stalled
        timer := .stopped
        drainRequested := ln.ldu.drainRequested || (ln.ldu.state == .draining)
        counters := { counted.counters with stalls := satInc counted.counters.stalls } } }, true)

/-- The expiry of the retransmit timer's present run, once reached, is taken (R131, R132). -/
def State.retransmitExpiry (s : State) (l : LaneId) : State :=
  if (s.lane l).ldu.timer.due s.deviceTime then
    let x := (s.lane l).expire s.trunk.linkUp s.deviceTime
    let s' := s.setLane l x.1
    (if x.2 then s'.notify .laneStalled l else s').arbitrate
  else s

/-- RETRANSMIT_TIMER_EXPIRY (R131). -/
def execRetransmitTimerExpiry (l : Nat) (s : State) : Host.Outcome State Fault Refusal :=
  onLane l (fun l s => s.retransmitExpiry l) s

/-! ## Lane commands -/

/-- The effect of a lane command whose first check is the lane's range (6.6). -/
def State.onCommandLane (s : State) (c : Command) (lane : Byte) (f : LaneId → State) : State :=
  match laneOf lane with
  | none => s.finish c .badRange []
  | some l => f l

/-- The result fields of LANE_FLUSH (R106, R204): the handoff, and the sequence it gave, absent when deferred. -/
def Lane.flushResult (before after : Lane) : List Byte :=
  if after.closePending then enc8 1 ++ encOpt enc16 (none : Option SeqNo) else enc8 0 ++ encOpt enc16 (some before.ldu.c)

/-- LANE_FLUSH at a lane in service (R106). A handoff offered before it is taken first. -/
def State.flushLane (s0 : State) (c : Command) (l : LaneId) : State :=
  let s := s0.setLane l ((s0.lane l).settle l)
  let ln := s.lane l
  if ln.closePending then s.finish c .already []
  else if ln.openRecords = [] then s.finish c .empty []
  else
    let after := ln.closeNow l s.deviceTime .flush
    (s.setLane l after).finish c .ok (ln.flushResult after)

/-- LANE_FLUSH's own judgement and effect (R106). -/
def State.laneFlush (s : State) (c : Command) (lane : Byte) : State :=
  s.onCommandLane c lane fun l =>
    match (s.lane l).ldu.state with
    | .disabled => s.finish c .laneDisabled []
    | .open | .draining | .stalled => (s.flushLane c l).arbitrate

/-- LANE_FLUSH begins execution (R106). -/
def execLaneFlush (s : State) : Host.Outcome State Fault Refusal :=
  running (fun s => s.runCommand Code.laneFlush (readWhole read8) (fun _ => .matching) State.laneFlush) s

/-- A present value lies in its range; an absent one is not judged (R136). -/
def inRange (x : Option Nat) (ok : Nat → Bool) : Bool :=
  match x with
  | some v => ok v
  | none => true

/-- Every present value of a LANE_CONFIG lies in its range (R136). -/
def LaneConfigParams.inRanges (a : LaneConfigParams) : Bool :=
  inRange a.window (fun v => decide (1 ≤ v ∧ v ≤ 32))
    && inRange a.retryLimit (fun v => decide (v ≤ 15))
    && inRange a.timeoutMs (fun v => decide (1 ≤ v ∧ v ≤ 1000))
    && inRange a.maxBytes (fun v => decide (128 ≤ v ∧ v ≤ 4096 ∧ v % 64 = 0))
    && inRange a.recordLimit (fun v => decide (1 ≤ v ∧ v ≤ 255))
    && inRange a.idleLimit (fun v => decide (v ≤ 65535))
    && inRange a.ageLimit (fun v => decide (v ≤ 65535))

/-- A lane with the present values of a LANE_CONFIG in place of its own (R136). -/
def Lane.configured (ln : Lane) (a : LaneConfigParams) : Lane :=
  { asm := { ln.asm with config := {
      maxBytes := a.maxBytes.getD ln.asm.config.maxBytes
      recordLimit := a.recordLimit.getD ln.asm.config.recordLimit
      idleLimit := a.idleLimit.getD ln.asm.config.idleLimit
      ageLimit := a.ageLimit.getD ln.asm.config.ageLimit } }
    ldu := { ln.ldu with config := {
      window := a.window.getD ln.ldu.config.window
      retryLimit := a.retryLimit.getD ln.ldu.config.retryLimit
      timeoutMs := a.timeoutMs.getD ln.ldu.config.timeoutMs } } }

/-- The result fields of LANE_CONFIG (R136, R204): the lane and all seven values, as counts. -/
def Lane.configResult (l : LaneId) (ln : Lane) : List Byte :=
  enc8 l ++ encCount ln.ldu.config.window ++ encCount ln.ldu.config.retryLimit ++ encCount ln.ldu.config.timeoutMs
    ++ encCount ln.asm.config.maxBytes ++ encCount ln.asm.config.recordLimit ++ encCount ln.asm.config.idleLimit
    ++ encCount ln.asm.config.ageLimit

/-- LANE_CONFIG's own judgement and effect (R136). -/
def State.laneConfig (s : State) (c : Command) (a : LaneConfigParams) : State :=
  s.onCommandLane c a.lane fun l =>
    match (s.lane l).ldu.state with
    | .open | .draining => s.finish c .laneBusy []
    | .stalled => s.finish c .laneStalled []
    | .disabled =>
      if a.inRanges then
        (s.setLane l ((s.lane l).configured a)).finish c .ok (((s.lane l).configured a).configResult l)
      else s.finish c .badRange []

/-- LANE_CONFIG begins execution (R136). -/
def execLaneConfig (s : State) : Host.Outcome State Fault Refusal :=
  running (fun s => s.runCommand Code.laneConfig (readWhole readLaneConfig) (fun _ => .matching) State.laneConfig) s

/-- A DISABLED lane put into service (R107, R137): OPEN, with an empty open bundle and both timers stopped. -/
def Lane.started (l : LaneId) (ln : Lane) : Lane :=
  { asm := { ln.asm with openB := some (Bundle.fresh l), idle := .stopped, age := .stopped }
    ldu := { ln.ldu with state := .open } }

/-- LANE_START's own judgement and effect (R137). -/
def State.laneStart (s : State) (c : Command) (lane : Byte) : State :=
  s.onCommandLane c lane fun l =>
    match (s.lane l).ldu.state with
    | .disabled => (s.setLane l ((s.lane l).started l)).finish c .ok (enc8 LaneState.open.code)
    | .open => s.finish c .laneBusy (enc8 LaneState.open.code)
    | .draining => s.finish c .laneBusy (enc8 LaneState.draining.code)
    | .stalled => s.finish c .laneStalled (enc8 LaneState.stalled.code)

/-- LANE_START begins execution (R107, R137). -/
def execLaneStart (s : State) : Host.Outcome State Fault Refusal :=
  running (fun s => s.runCommand Code.laneStart (readWhole read8) (fun _ => .matching) State.laneStart) s

/-- LANE_STOP on an OPEN lane (R138): the entry to DRAINING, then the drain check. -/
def State.beginDrain (s : State) (l : LaneId) : State :=
  (s.setLane l ((s.lane l).enterDraining l s.deviceTime)).drainCheck l

/-- LANE_STOP's own judgement and effect (R138). -/
def State.laneStop (s : State) (c : Command) (lane : Byte) : State :=
  s.onCommandLane c lane fun l =>
    let ln := s.lane l
    match ln.ldu.state with
    | .disabled => s.finish c .laneDisabled (enc8 LaneState.disabled.code)
    | .draining => s.finish c .already (enc8 LaneState.draining.code)
    | .open => ((s.beginDrain l).finish c .ok (enc8 ((s.beginDrain l).lane l).ldu.state.code)).arbitrate
    | .stalled =>
      if ln.ldu.drainRequested then s.finish c .already (enc8 LaneState.stalled.code)
      else (s.setLane l { ln with ldu := { ln.ldu with drainRequested := true } }).finish c .ok (enc8 LaneState.stalled.code)

/-- LANE_STOP begins execution (R108, R134, R135, R138). -/
def execLaneStop (s : State) : Host.Outcome State Fault Refusal :=
  running (fun s => s.runCommand Code.laneStop (readWhole read8) (fun _ => .matching) State.laneStop) s

/-- Whether a bundle frame of the lane is on the wire in mode SENDING, so that a LANE_RESET cuts it (R139, R161, R162). -/
def State.cuts (s : State) (l : LaneId) : Bool := s.trunk.sendingBundle (some l)

/-- A lane in service is reset (R139, R161): its frame on the wire is cut, and it goes to DISABLED with everything it holds discarded. -/
def State.resetLane (s : State) (l : LaneId) : State := (if s.cuts l then s.cutFrame else s).disableLane l

/-- LANE_RESET's own judgement and effect (R139). -/
def State.laneReset (s : State) (c : Command) (lane : Byte) : State :=
  s.onCommandLane c lane fun l =>
    match (s.lane l).ldu.state with
    | .disabled => s.finish c .ok (enc8 LaneState.disabled.code ++ encCount 0 ++ encFlag false)
    | .open | .draining | .stalled =>
      (s.resetLane l).finish c .ok
        (enc8 LaneState.disabled.code ++ encCount (s.lane l).discardCount ++ encFlag (s.cuts l))

/-- LANE_RESET begins execution (R109, R139, R161). -/
def execLaneReset (s : State) : Host.Outcome State Fault Refusal :=
  running (fun s => s.runCommand Code.laneReset (readWhole read8) (fun _ => .matching) State.laneReset) s

end Sys2Proof.Machine
end

