-- ==== Sys2Proof/Machine/Management.lean ====
section
/-! DEFINITION. The meanings of the Management Unit's events and commands: arrivals, ends, sessions, status, notices and counters (chapters 8 and 9). -/

namespace Sys2Proof.Machine

/-! ## Arrival (R170, R171, R172) -/

/-- COMMANDS_DISCARDED adds one (R184). -/
def Mu.countDiscarded (m : Mu) : Mu := { m with commandsDiscarded := satInc m.commandsDiscarded }

/-- DUPLICATES_DISCARDED adds one (R184). -/
def Mu.countDuplicate (m : Mu) : Mu := { m with duplicatesDiscarded := satInc m.duplicatesDiscarded }

/-- REPLAYS adds one (R184). -/
def Mu.countReplay (m : Mu) : Mu := { m with replays := satInc m.replays }

/-- COMMANDS_BUSY adds one (R184). -/
def Mu.countBusy (m : Mu) : Mu := { m with commandsBusy := satInc m.commandsBusy }

/-- Two commands are the same for the MU when epoch and command sequence are equal (R170). -/
def Command.same (a b : Command) : Bool := a.epoch == b.epoch && a.seq == b.seq

/-- Whether an arrival repeats the last-completed command (R170, case 2). -/
def Mu.completedBefore (m : Mu) (c : Command) : Option Response :=
  match m.last with
  | some x => if x.epoch = c.epoch ∧ x.seq = c.seq then some x.response else none
  | none => none

/-- Whether an arrival repeats a command in the queue or in execution (R170, case 3). -/
def Mu.waitsOrRuns (m : Mu) (c : Command) : Bool :=
  m.queue.any (·.same c) || (match m.executing with | some x => x.command.same c | none => false)

/-- A response is placed where the queue has room (R171, R172). -/
def Trunk.hasRoom (t : Trunk) : Bool := decide (t.responses.length < Config.responsePlaces)

/-- An arrival is judged by the five cases of R170, in order. -/
def State.judgeArrival (s : State) (c : Command) : State :=
  if s.trunk.linkUp = false then { s with mu := s.mu.countDiscarded }
  else
    match s.mu.completedBefore c with
    | some r =>
      if s.trunk.hasRoom then
        ({ s with trunk := s.trunk.placeResponse { r with replayed := true }, mu := s.mu.countReplay } : State).arbitrate
      else { s with mu := s.mu.countDiscarded }
    | none =>
      if s.mu.waitsOrRuns c then { s with mu := s.mu.countDuplicate }
      else if Config.commandPlaces ≤ s.mu.queue.length then
        if s.trunk.hasRoom then
          ({ s with trunk := s.trunk.placeResponse (c.respond .busy []), mu := s.mu.countBusy } : State).arbitrate
        else { s with mu := s.mu.countDiscarded }
      else { s with mu := { s.mu with queue := s.mu.queue ++ [c] } }

/-- The oldest command arrival in flight, and what is left in flight without it; the lane updates handed on before it need no order with it (R155). -/
def firstArrival : List Handover → Option (Command × List Handover)
  | [] => none
  | .arrival c :: rest => some (c, rest)
  | .update u :: rest => (firstArrival rest).map fun x => (x.1, .update u :: x.2)

/-- The oldest command arrival in flight is taken whole at the MU (R155, R170). -/
def State.takeArrival (s : State) : State :=
  match firstArrival s.trunk.handed with
  | some (c, rest) => ({ s with trunk := { s.trunk with handed := rest } } : State).judgeArrival c
  | none => s

/-- COMMAND_ARRIVAL (R170, R171, R172). -/
def execCommandArrival (s : State) : Host.Outcome State Fault Refusal := running State.takeArrival s

/-- The command in execution ends, when its response is ready and the response queue has room; else it waits (R176). -/
def State.commandEnds (s : State) : State :=
  match s.mu.readyResponse with
  | some (c, r) => if s.trunk.hasRoom then (s.endCommand c r).arbitrate else s
  | none => s

/-- COMMAND_END (R176). -/
def execCommandEnd (s : State) : Host.Outcome State Fault Refusal := running State.commandEnds s

/-- A command whose code is not in the command index is refused at check 1 (R174). -/
def State.refuseUnknown (s : State) : State :=
  match s.beginCommand (fun code => !commandIndex.contains code) with
  | some (c, s') => s'.finish c .badCommand []
  | none => s

/-- UNKNOWN_COMMAND_CODE begins execution (R174). -/
def execUnknownCommandCode (s : State) : Host.Outcome State Fault Refusal := running State.refuseUnknown s

/-! ## Sessions (R167, R168, R169) -/

/-- The session takes an epoch, and every notice source is re-armed (R168, R190). -/
def State.takeEpoch (s : State) (epoch : Word) : State :=
  { s with
    mu := { s.mu with epoch := some epoch, lastEpoch := epoch }
    notices := (s.notices.rearmAll s.deviceTime fun _ => true).1 }

/-- OPEN_SESSION's own judgement and effect (R168). -/
def State.openSession (s : State) (c : Command) (_ : Unit) : State :=
  if s.mu.lastEpoch < c.epoch then ((s.takeEpoch c.epoch).finish c .ok (enc32 c.epoch ++ encFlag s.sessionOpen)).arbitrate
  else s.finish c .staleEpoch []

/-- OPEN_SESSION begins execution (R168). -/
def execOpenSession (s : State) : Host.Outcome State Fault Refusal :=
  running (fun s => s.runCommand Code.openSession (readWhole readNothing) (fun _ => .exempt) State.openSession) s

/-- CLOSE_SESSION's effect (R169). -/
def State.closeSession (s : State) (c : Command) (_ : Unit) : State :=
  ({ s with mu := { s.mu with epoch := none } } : State).finish c .ok (enc32 c.epoch)

/-- CLOSE_SESSION begins execution (R169). -/
def execCloseSession (s : State) : Host.Outcome State Fault Refusal :=
  running (fun s => s.runCommand Code.closeSession (readWhole readNothing) (fun _ => .matching) State.closeSession) s

/-! ## READ_STATUS (R178) -/

/-- The values of scope DEVICE (R178, R204). -/
def State.deviceStatus (s : State) : List Byte :=
  [s.trunk.unit] ++ enc32 s.deviceTime ++ encBit s.trunk.linkUp ++ encBit s.sessionOpen ++ encOpt enc32 s.mu.epoch
    ++ enc32 s.mu.lastEpoch ++ enc16 s.rules.version

/-- The values of scope PORT (R26, R178). -/
def State.portStatus (s : State) (p : PortId) : List Byte :=
  enc8 (s.port p).state.code ++ encCount (s.port p).fill ++ encBit (s.holdLine p)

/-- The values of scope LANE (R112, R145, R178). -/
def Lane.status (ln : Lane) : List Byte :=
  enc8 ln.ldu.state.code ++ enc16 ln.ldu.a ++ enc16 ln.ldu.r ++ enc16 ln.ldu.s ++ enc16 ln.ldu.c ++ enc16 ln.ldu.g
    ++ encCount ln.ldu.ready.length ++ encCount ln.ldu.retention.length ++ encCount ln.ldu.retry
    ++ encBit ln.ldu.drainRequested ++ encBit ln.closePending

/-- The values of scope POOL (R87, R178). -/
def Pool.status (p : Pool) : List Byte :=
  encCount p.free ++ encCount p.holdThreshold ++ encCount p.releaseThreshold ++ encBit p.held

/-- The port that a status or counter number names. -/
def portNumber (n : Option Nat) : Option PortId :=
  match n with
  | some n => if h : n < 8 then some ⟨n, h⟩ else none
  | none => none

/-- The lane that a status or counter number names. -/
def laneNumber (n : Option Nat) : Option LaneId :=
  match n with
  | some n => if h : n < 16 then some ⟨n, h⟩ else none
  | none => none

/-- The result fields of READ_STATUS (R178): the scope, the number where the scope uses one, and the scope's values; none is BAD_RANGE. -/
def State.statusResult (s : State) (a : ReadStatusParams) : Option (List Byte) :=
  if a.scope = 0 then some ([a.scope] ++ s.deviceStatus)
  else if a.scope = 1 then (portNumber a.number).map fun p : PortId => [a.scope] ++ encCount p ++ s.portStatus p
  else if a.scope = 2 then (laneNumber a.number).map fun l : LaneId => [a.scope] ++ encCount l ++ (s.lane l).status
  else if a.scope = 3 then some ([a.scope] ++ s.pool.status)
  else none

/-- READ_STATUS's own judgement and answer (R178). -/
def State.readStatus (s : State) (c : Command) (a : ReadStatusParams) : State :=
  match s.statusResult a with
  | some bytes => s.finish c .ok bytes
  | none => s.finish c .badRange []

/-- READ_STATUS begins execution (R178). -/
def execReadStatus (s : State) : Host.Outcome State Fault Refusal :=
  running (fun s => s.runCommand Code.readStatus (readWhole readReadStatus) (fun _ => .readOnly) State.readStatus) s

/-! ## NOTICE_REARM (R192) -/

/-- The sources that a NOTICE_REARM concerns (R192, 10.4): all with ALL, those named with LIST; none is BAD_RANGE. -/
def NoticeRearmParams.concerned (a : NoticeRearmParams) : Option (SourceNo → Bool) :=
  if a.selection = 1 then some fun _ => true
  else if a.selection = 0 ∧ a.sources ≠ [] ∧ a.sources.all (fun b => decide (b.toNat < 44)) then
    some fun i => a.sources.any fun b => b.toNat == i.val
  else none

/-- NOTICE_REARM's own judgement and effect (R190, R192). -/
def State.noticeRearm (s : State) (c : Command) (a : NoticeRearmParams) : State :=
  match a.concerned with
  | none => s.finish c .badRange []
  | some concerned =>
    let x := s.notices.rearmAll s.deviceTime concerned
    (({ s with notices := x.1 } : State).finish c .ok
      (encCount x.2.armed ++ encCount x.2.delivered ++ encCount x.2.lost ++ encCount x.1.queue.length)).arbitrate

/-- NOTICE_REARM begins execution (R192); a queued notice may let the arbiter choose (R158). -/
def execNoticeRearm (s : State) : Host.Outcome State Fault Refusal :=
  running (fun s => s.runCommand Code.noticeRearm (readWhole readNoticeRearm) (fun _ => .matching) State.noticeRearm) s

/-! ## READ_COUNTERS (R195 to R197, 9.7) -/

/-- Counter values as result fields: four bytes each (R204). -/
def encCounters (values : List Word) : List Byte := values.flatMap enc32

/-- Group PORT in the order of 9.7. -/
def PortCounters.values (c : PortCounters) : List Word :=
  [c.framesOk, c.checkErrors, c.lengthErrors, c.unknownKind, c.overflows, c.truncated, c.disabledDiscards, c.malformed,
   c.recordsSeen, c.noMatch, c.ruleDrops, c.resetDiscards]

/-- The Assembler's part of group LANE in the order of 9.7. -/
def AssemblyCounters.values (c : AssemblyCounters) : List Word :=
  [c.recordsPlaced, c.bytesPlaced, c.closeCount, c.closeFill, c.closeIdle, c.closeAge, c.closeUrgent, c.closeFlush,
   c.closeDrain, c.dropLaneFull, c.dropPoolEmpty, c.dropDisabled, c.dropDraining]

/-- The LDU's part of group LANE in the order of 9.7. -/
def LduCounters.values (c : LduCounters) : List Word :=
  [c.bundlesSent, c.bundlesResent, c.retransmitExpiries, c.stalls, c.aborts]

/-- Group TRUNK in the order of 9.7. -/
def TrunkCounters.values (c : TrunkCounters) : List Word :=
  [c.framesInOk, c.inCheckErrors, c.inUnitMismatch, c.inUnknownKind, c.inLengthErrors, c.laneUpdates, c.updateRefused,
   c.updateIdleLane, c.grantClamped, c.updatesDiscardedReset, c.framesOut, c.linkLosses]

/-- The owners of a group in the order of R197's table, with the group and number of the response (R196, R197); none is BAD_RANGE. -/
def ReadCountersParams.owners (a : ReadCountersParams) : Option (List Byte × List CounterOwner) :=
  if a.group = 0 then (portNumber a.number).map fun p : PortId => ([a.group] ++ encCount p, [.port p])
  else if a.group = 1 then (laneNumber a.number).map fun l : LaneId => ([a.group] ++ encCount l, [.assembler l, .ldu l])
  else if a.group = 2 then some ([a.group], [.trunk])
  else if a.group = 3 then some ([a.group], [.classifier, .streams, .pool, .mu, .notices])
  else none

/-- The counters of an owner, in the order of 9.7. -/
def State.ownerCounters (s : State) : CounterOwner → List Word
  | .port p => (s.port p).counters.values
  | .assembler l => (s.lane l).asm.counters.values
  | .ldu l => (s.lane l).ldu.counters.values
  | .trunk => s.trunk.counters.values
  | .classifier =>
    [s.classifier.staleDrops, s.classifier.duplicateDrops, s.classifier.thinned, s.classifier.classUnsetDrops,
     s.classifier.noLaneDrops]
  | .streams => [s.streams.learned, s.streams.learnFailed]
  | .pool => [s.pool.holdEvents]
  | .mu => [s.mu.commandsDone, s.mu.commandsBusy, s.mu.commandsDiscarded, s.mu.duplicatesDiscarded, s.mu.replays]
  | .notices => [s.notices.lost]

/-- The counters of an owner at 0 (R197). -/
def State.clearOwner (s : State) : CounterOwner → State
  | .port p => s.countPort p fun _ => {}
  | .assembler l => s.countAsm l fun _ => {}
  | .ldu l => s.setLane l { s.lane l with ldu := { (s.lane l).ldu with counters := {} } }
  | .trunk => s.countTrunk fun _ => {}
  | .classifier => { s with classifier := { s.classifier with
      staleDrops := 0, duplicateDrops := 0, thinned := 0, classUnsetDrops := 0, noLaneDrops := 0 } }
  | .streams => { s with streams := { s.streams with learned := 0, learnFailed := 0 } }
  | .pool => { s with pool := { s.pool with holdEvents := 0 } }
  | .mu => { s with mu := { s.mu with
      commandsDone := 0, commandsBusy := 0, commandsDiscarded := 0, duplicatesDiscarded := 0, replays := 0 } }
  | .notices => { s with notices := { s.notices with lost := 0 } }

/-- The event of a READ_COUNTERS at its next owner (R197): all of the owner's counters are read together, and set to 0 with clear yes; after the last owner the response is ready. -/
def State.readOwner (s : State) (c : Command) (clear : Bool) (left : List CounterOwner) (result : List Byte) : State :=
  match left with
  | [] => s.finish c .ok result
  | o :: rest =>
    let bytes := result ++ encCounters (s.ownerCounters o)
    let s' := if clear then s.clearOwner o else s
    match rest with
    | [] => s'.finish c .ok bytes
    | _ :: _ => { s' with mu := { s'.mu with executing := some ⟨c, .reading clear rest bytes⟩ } }

/-- READ_COUNTERS's own judgement, and the event at its first owner (R196, R197). -/
def State.readCounters (s : State) (c : Command) (a : ReadCountersParams) : State :=
  match a.owners with
  | some (head, owners) => s.readOwner c a.clear owners head
  | none => s.finish c .badRange []

/-- The session need of READ_COUNTERS (R175, 8.7). -/
def readCountersNeed (a : ReadCountersParams) : SessionNeed := if a.clear then .matching else .readOnly

/-- A READ_COUNTERS in execution is taken at its next owner; with none in execution, one begins (R196, R197). -/
def State.stepReadCounters (s : State) : State :=
  match s.mu.executing with
  | some ⟨c, .reading clear left result⟩ => s.readOwner c clear left result
  | _ => s.runCommand Code.readCounters (readWhole readReadCounters) readCountersNeed State.readCounters

/-- READ_COUNTERS at one owner of its group, the first event of which begins the execution (R196, R197). -/
def execReadCounters (s : State) : Host.Outcome State Fault Refusal := running State.stepReadCounters s

end Sys2Proof.Machine
end

