-- ==== Sys2Proof/Machine/Reset.lean ====
section
/-! DEFINITION. The meanings of the reset line (chapter 10) and of DATAPATH_RESET and its phases (chapter 8). -/

namespace Sys2Proof.Machine

/-! ## The reset line (R5, R206) -/

/-- RESET_N low (R206): every block holds its power-on values and device time is 0. The indication at each port is what its line carries (R5, assumption 18); the unit number is read again at the release; the lines are the senders', and the model's own queue and count are not the part's. -/
def State.powerOn (s : State) : State :=
  { State.reset with
    resetN := false
    lines := s.lines
    ports := s.lines.map fun signal => { ({} : Port) with signal }
    trunk := { State.reset.trunk with unit := s.trunk.unit }
    freeCount := s.freeCount
    pending := s.pending }

/-- POWER_ON_RESET (R206). -/
def execPowerOnReset (s : State) : Host.Outcome State Fault Refusal := .next s.powerOn

/-- The rising edge of RESET_N after a full low level (R147, R206): the straps are read into the unit number. -/
def State.releaseReset (s : State) (straps : Byte) : State := { s with resetN := true, trunk := { s.trunk with unit := straps } }

/-- The rising edge of RESET_N after a low level below the minimum (R206): the part's state is undetermined, a free value; the field lines and the queue of commands are the senders'. -/
def State.undetermined (s : State) : State :=
  { Config.undeterminedState s.freeCount with resetN := true, lines := s.lines, freeCount := s.freeCount + 1, pending := s.pending }

/-- RESET_RELEASE (R147, R206). -/
def execResetRelease (straps : Byte) (lowMicros : Nat) (s : State) : Host.Outcome State Fault Refusal :=
  .next
    (if s.resetN then s
    else if lowMicros < Config.resetLowMicros then s.undetermined
    else s.releaseReset straps)

/-! ## DATAPATH_RESET (R179 to R182) -/

/-- Phase 1 at the field ports (R22, R180). -/
def State.resetPorts (s : State) : State := { s with ports := s.ports.map Port.resetStart }

/-- Phases 1 and 2 (R22, R72, R180): the ports begin the reset, and the Classifier reports the abandon done at once if IDLE, or takes the abandon request. -/
def State.datapathReset (s : State) (c : Command) (_ : Unit) : State :=
  let s' := s.resetPorts
  match s.classifier.frame with
  | none => { s' with mu := { s'.mu with executing := some ⟨c, .phase3Due⟩ } }
  | some _ =>
    { s' with
      classifier := { s'.classifier with abandon := true }
      mu := { s'.mu with executing := some ⟨c, .abandoning⟩ } }

/-- DATAPATH_RESET begins execution (R179, R180). -/
def execDatapathReset (s : State) : Host.Outcome State Fault Refusal :=
  running (fun s => s.runCommand Code.datapathReset (readWhole readNothing) (fun _ => .matching) State.datapathReset) s

/-- Phase 3 (R163, R180): a SENDING bundle frame is cut; with a bundle frame on the wire the phase waits for its end, without one it ends at once. -/
def State.phase3 (s : State) : State :=
  match s.mu.executing with
  | some ⟨_, .phase3Due⟩ =>
    let s' := s.cutFrame
    { s' with
      mu := s'.mu.setProgress
        (if s.trunk.bundleOnWire then .cutting (s.trunk.sendingBundle none) else .phase4Due false) }
  | _ => s

/-- RESET_PHASE_3 (R163, R180). -/
def execResetPhase3 (s : State) : Host.Outcome State Fault Refusal := running State.phase3 s

/-- The lanes that phase 4 takes to DISABLED (R143, R179). -/
def State.lanesInService (s : State) : List LaneId := (List.finRange 16).filter fun l => (s.lane l).ldu.state != .disabled

/-- Phase 4 (R110, R143, R181): every lane in service goes to DISABLED with its bundles discarded, its cells freed. -/
def State.disableLanes (s : State) : State := s.lanesInService.foldl State.disableLane s

/-- Phase 5 (R85). -/
def Pool.reset (p : Pool) : Pool := { p with free := Config.cellCount, held := false }

/-- Phases 5, 6 and 7 (R23, R45, R85, R181). -/
def State.resetEnds (s : State) : State :=
  { s with pool := s.pool.reset, streams := s.streams.clearDynamic, ports := s.ports.map Port.resetEnd }

/-- Phases 4 to 7, and the response of phase 8 ready (R181): aborted, and the number of lanes reset (R179). -/
def State.phase4 (s : State) : State :=
  match s.mu.executing with
  | some ⟨c, .phase4Due aborted⟩ =>
    let s' := s.disableLanes.resetEnds
    { s' with
      mu := s'.mu.setProgress
        (.resetDone (c.respond .ok (encFlag aborted ++ encCount s.lanesInService.length))) }
  | _ => s

/-- RESET_PHASE_4 (R143, R181). -/
def execResetPhase4 (s : State) : Host.Outcome State Fault Refusal := running State.phase4 s

end Sys2Proof.Machine
end

