-- ==== Sys2Proof/Machine/Tables.lean ====
section
/-! DEFINITION. The meanings of the table commands: streams (chapter 2), rules, classes and spread (chapter 3), and the cell pool (chapter 4). -/

namespace Sys2Proof.Machine

/-! ## Stream commands (R38 to R44) -/

/-- The decimation is absent or 1 to 255 (R38). -/
def decimationOk (d : Option Nat) : Bool :=
  match d with
  | none => true
  | some n => decide (1 ≤ n ∧ n ≤ 255)

/-- The configuration of STREAM_WRITE in its decoded form. -/
structure StreamConfig where
  key : Key
  cls : ClassId
  decimation : Option Nat
  stale : StalePolicy
  urgent : Bool
  deriving DecidableEq, Repr, Inhabited

/-- The four range checks of STREAM_WRITE (R38): every failure has the same answer, BAD_RANGE. -/
def StreamWriteParams.check (a : StreamWriteParams) : Option StreamConfig := do
  let key ← a.key.key
  let cls ← classOf a.cls
  let decimation ← if decimationOk a.decimation then some a.decimation else none
  let stale ← StalePolicy.ofCode a.stale
  some { key, cls, decimation, stale, urgent := a.urgent }

/-- A new entry written by STREAM_WRITE (R40). -/
def StreamConfig.insert (a : StreamConfig) : StreamEntry :=
  { key := a.key, cls := a.cls, decimation := a.decimation, stale := a.stale, urgent := a.urgent, learned := false }

/-- An entry replaced by STREAM_WRITE (R39): its key and its three counters are kept. -/
def StreamConfig.replace (a : StreamConfig) (e : StreamEntry) : StreamEntry :=
  { e with
    cls := a.cls
    decimation := a.decimation
    stale := a.stale
    urgent := a.urgent
    learned := false
    lastTimestamp := none
    decimationCount := 0 }

/-- The result fields of STREAM_WRITE (R38, R204): outcome, stream number, generation. -/
def streamWriteResult (replaced : Bool) (n : StreamNo) (generation : BitVec 16) : List Byte :=
  encBit replaced ++ encCount n ++ enc16 generation

/-- STREAM_WRITE's own judgement and effect (R38, R39, R40). -/
def State.streamWrite (s : State) (c : Command) (a : StreamWriteParams) : State :=
  match a.check with
  | none => s.finish c .badRange []
  | some w =>
    match s.streams.find w.key with
    | some n =>
      let e' := (s.streams.slot n).entry.map w.replace
      ({ s with streams := s.streams.write n e' } : State).finish c .ok
        (streamWriteResult true n ((s.streams.slot n).generation + 1))
    | none =>
      match s.streams.freeSlot w.key with
      | some n =>
        ({ s with streams := s.streams.write n (some w.insert) } : State).finish c .ok
          (streamWriteResult false n ((s.streams.slot n).generation + 1))
      | none => s.finish c .bucketFull []

/-- STREAM_WRITE begins execution (R38). -/
def execStreamWrite (s : State) : Host.Outcome State Fault Refusal :=
  running (fun s => s.runCommand Code.streamWrite (readWhole readStreamWrite) (fun _ => .matching) State.streamWrite) s

/-- STREAM_DELETE's own judgement and effect (R42). -/
def State.streamDelete (s : State) (c : Command) (k : RawKey) : State :=
  match k.key with
  | none => s.finish c .badRange []
  | some k =>
    match s.streams.find k with
    | some n =>
      ({ s with streams := s.streams.write n none } : State).finish c .ok
        (encCount n ++ enc16 ((s.streams.slot n).generation + 1))
    | none => s.finish c .notFound []

/-- STREAM_DELETE begins execution (R42). -/
def execStreamDelete (s : State) : Host.Outcome State Fault Refusal :=
  running (fun s => s.runCommand Code.streamDelete (readWhole readKey) (fun _ => .matching) State.streamDelete) s

/-- How a stream read finds its slot (R43). -/
inductive StreamFound where
  | badRange
  | notFound
  | slot (n : StreamNo)
  deriving DecidableEq, Repr, Inhabited

/-- The slot a selector names (R43): a key's entry, or an occupied slot. -/
def StreamTable.select (t : StreamTable) (sel : StreamSelector) : StreamFound :=
  match sel with
  | .key k =>
    match k.key with
    | none => .badRange
    | some k =>
      match t.find k with
      | some n => .slot n
      | none => .notFound
  | .number m =>
    if h : m.toNat < 2048 then
      if (t.slot ⟨m.toNat, h⟩).entry.isSome then .slot ⟨m.toNat, h⟩ else .notFound
    else .badRange
  | .other => .badRange

/-- The result fields of STREAM_READ (R44, R204). -/
def streamReadResult (n : StreamNo) (generation : BitVec 16) (e : StreamEntry) : List Byte :=
  encCount n ++ enc16 generation ++ encKey e.key ++ enc8 e.cls ++ encOpt encCount e.decimation ++ enc8 e.stale.code
    ++ encFlag e.urgent ++ encFlag e.learned ++ encOpt enc32 e.lastTimestamp ++ encCount e.decimationCount
    ++ enc32 e.accepted ++ enc32 e.dropped ++ enc32 e.thinned

/-- An entry after a clearing read (R43). -/
def StreamEntry.cleared (e : StreamEntry) : StreamEntry := { e with accepted := 0, dropped := 0, thinned := 0 }

/-- STREAM_READ's own judgement and effect (R43, R44): a clearing read returns the values before the clear. -/
def State.streamRead (s : State) (c : Command) (a : StreamReadParams) : State :=
  match s.streams.select a.selector with
  | .badRange => s.finish c .badRange []
  | .notFound => s.finish c .notFound []
  | .slot n =>
    match (s.streams.slot n).entry with
    | none => s.finish c .notFound []
    | some e =>
      let g := (s.streams.slot n).generation
      let s' : State := if a.clear then { s with streams := s.streams.setSlot n ⟨g, some e.cleared⟩ } else s
      s'.finish c .ok (streamReadResult n g e)

/-- The session need of a read that may clear (R175, 8.7). -/
def readNeed (clear : Bool) : SessionNeed := if clear then .matching else .readOnly

/-- STREAM_READ begins execution (R43). -/
def execStreamRead (s : State) : Host.Outcome State Fault Refusal :=
  running (fun s => s.runCommand Code.streamRead parseStreamRead (fun a => readNeed a.clear) State.streamRead) s

/-! ## Rule commands (R63 to R66) -/

/-- The rule entry that RULE_STAGE gives (R64): the empty form with valid no, else the parameters, which are then judged. -/
def RuleStageParams.rule (a : RuleStageParams) : Option Rule :=
  if a.valid then do
    let action ← Action.ofCode a.action
    let cls ← classOf a.cls
    let stale ← StalePolicy.ofCode a.stale
    some { valid := true, portSet := a.portSet, stationValue := a.stationValue, stationMask := a.stationMask,
           tagValue := a.tagValue, tagMask := a.tagMask, action, cls, learn := a.learn, stale }
  else some {}

/-- RULE_STAGE's own judgement and effect (R64). -/
def State.ruleStage (s : State) (c : Command) (a : RuleStageParams) : State :=
  match indexOf a.index, a.rule with
  | some i, some r =>
    ({ s with rules := { s.rules with staged := s.rules.staged.set i.val r i.isLt } } : State).finish c .ok (enc8 i)
  | _, _ => s.finish c .badRange []

/-- RULE_STAGE begins execution (R64). -/
def execRuleStage (s : State) : Host.Outcome State Fault Refusal :=
  running (fun s => s.runCommand Code.ruleStage (readWhole readRuleStage) (fun _ => .matching) State.ruleStage) s

/-- The Rule Set after an apply (R65). -/
def RuleSet.apply (r : RuleSet) : RuleSet := { r with active := r.staged, version := r.version + 1 }

/-- RULE_APPLY's effect (R65). -/
def State.ruleApply (s : State) (c : Command) (_ : Unit) : State :=
  ({ s with rules := s.rules.apply } : State).finish c .ok (enc16 (s.rules.version + 1))

/-- RULE_APPLY begins execution (R65). -/
def execRuleApply (s : State) : Host.Outcome State Fault Refusal :=
  running (fun s => s.runCommand Code.ruleApply (readWhole readNothing) (fun _ => .matching) State.ruleApply) s

/-- The ten fields of a rule, in the order of R63, in the types of RULE_STAGE's parameters (R66, R204). -/
def Rule.encode (r : Rule) : List Byte :=
  encFlag r.valid ++ [r.portSet] ++ enc24 r.stationValue ++ enc24 r.stationMask ++ enc16 r.tagValue ++ enc16 r.tagMask
    ++ enc8 r.action.code ++ enc8 r.cls ++ encFlag r.learn ++ enc8 r.stale.code

/-- The rule list a choice names (R66, 10.4): STAGED 0, ACTIVE 1. -/
def RuleSet.list (r : RuleSet) (choice : Byte) : Option (Vector Rule 64) :=
  if choice = 0 then some r.staged else if choice = 1 then some r.active else none

/-- RULE_READ's own judgement and answer (R66). -/
def State.ruleRead (s : State) (c : Command) (a : RuleReadParams) : State :=
  match indexOf a.index, s.rules.list a.list with
  | some i, some rules => s.finish c .ok ([a.list] ++ enc8 i ++ enc16 s.rules.version ++ rules[i].encode)
  | _, _ => s.finish c .badRange []

/-- RULE_READ begins execution (R66). -/
def execRuleRead (s : State) : Host.Outcome State Fault Refusal :=
  running (fun s => s.runCommand Code.ruleRead (readWhole readRuleRead) (fun _ => .readOnly) State.ruleRead) s

/-! ## Class and spread commands (R67 to R70) -/

/-- The sizes a SPREAD class may have (R68). -/
def spreadSizes : List Nat := [1, 2, 4, 8, 16, 32, 64]

/-- The class record that CLASS_WRITE gives, by checks 2 to 6 of R68; parameters the mode does not use are ignored. -/
def ClassWriteParams.record (a : ClassWriteParams) : Option ClassRecord :=
  if a.mode = 0 then some .unset
  else if a.mode = 1 then do
    let b ← a.lane
    let l ← laneOf b
    some (.fixed l)
  else if a.mode = 2 then do
    let b ← a.base
    let base ← indexOf b
    let size ← a.size
    if size ∈ spreadSizes ∧ base.val + size ≤ 64 then some (.spread base size) else none
  else none

/-- A class and its record, as CLASS_WRITE and MAP_READ report it (R68, R204): class, mode, and lane or base and size, the unused ones absent. That MAP_READ repeats the class byte in each of its eight records is the model's reading of R70, 'each as CLASS_WRITE reports it' (assumption 26). -/
def ClassRecord.encode (cls : ClassId) : ClassRecord → List Byte
  | .unset => enc8 cls ++ enc8 0 ++ [0, 0, 0]
  | .fixed l => enc8 cls ++ enc8 1 ++ encOpt (fun l : LaneId => enc8 l) (some l) ++ [0, 0]
  | .spread base size => enc8 cls ++ enc8 2 ++ [0] ++ encOpt enc8 (some base) ++ encOpt encCount (some size)

/-- CLASS_WRITE's own judgement and effect (R68). -/
def State.classWrite (s : State) (c : Command) (a : ClassWriteParams) : State :=
  match classOf a.cls, a.record with
  | some cls, some r =>
    ({ s with map := { s.map with classes := s.map.classes.set cls.val r cls.isLt } } : State).finish c .ok (r.encode cls)
  | _, _ => s.finish c .badRange []

/-- CLASS_WRITE begins execution (R68). -/
def execClassWrite (s : State) : Host.Outcome State Fault Refusal :=
  running (fun s => s.runCommand Code.classWrite (readWhole readClassWrite) (fun _ => .matching) State.classWrite) s

/-- A spread entry's byte (R202): FFh is UNSET, 00h–0Fh a lane; any other names a lane above 15. -/
def spreadEntryOf (b : Byte) : Option (Option LaneId) := if b = 0xFF then some none else (laneOf b).map some

/-- The entries of a SPREAD_WRITE, when every one is UNSET or a lane 0–15 (R69). -/
def spreadEntriesOf (bs : List Byte) : Option (List (Option LaneId)) := bs.mapM spreadEntryOf

/-- Writes a run of consecutive spread entries from `first` (R69). -/
def writeRun (table : Vector (Option LaneId) 64) (first : Nat) (entries : List (Option LaneId)) : Vector (Option LaneId) 64 :=
  Vector.ofFn fun i : Fin 64 => if h : first ≤ i.val ∧ i.val - first < entries.length then entries[i.val - first]'h.2 else table[i]

/-- SPREAD_WRITE's own judgement and effect (R69). -/
def State.spreadWrite (s : State) (c : Command) (a : SpreadWriteParams) : State :=
  match indexOf a.first, spreadEntriesOf a.entries with
  | some first, some entries =>
    if 1 ≤ entries.length ∧ entries.length ≤ 16 ∧ first.val + entries.length ≤ 64 then
      let salt := a.salt.getD s.map.salt
      ({ s with map := { s.map with spread := writeRun s.map.spread first entries, salt } } : State).finish c .ok
        (enc8 first ++ encCount entries.length ++ enc24 salt)
    else s.finish c .badRange []
  | _, _ => s.finish c .badRange []

/-- SPREAD_WRITE begins execution (R69). -/
def execSpreadWrite (s : State) : Host.Outcome State Fault Refusal :=
  running (fun s => s.runCommand Code.spreadWrite (readWhole readSpreadWrite) (fun _ => .matching) State.spreadWrite) s

/-- The result fields of MAP_READ (R70, R204): the eight class records, the 64 spread entries, the salt. -/
def ClassMap.encode (m : ClassMap) : List Byte :=
  (List.finRange 8).flatMap (fun cls => m.classes[cls].encode cls) ++ m.spread.toList.flatMap encSpread ++ enc24 m.salt

/-- MAP_READ's answer (R70). -/
def State.mapRead (s : State) (c : Command) (_ : Unit) : State := s.finish c .ok s.map.encode

/-- MAP_READ begins execution (R70). -/
def execMapRead (s : State) : Host.Outcome State Fault Refusal :=
  running (fun s => s.runCommand Code.mapRead (readWhole readNothing) (fun _ => .readOnly) State.mapRead) s

/-! ## POOL_SET (R82) -/

/-- The ranges of POOL_SET (R82). -/
def PoolSetParams.ok (a : PoolSetParams) : Bool := decide (a.hold ≤ 4095 ∧ a.release ≤ 4095 ∧ a.hold < a.release)

/-- The thresholds take their values, and pool hold is judged at once against the free count (R82). -/
def State.setThresholds (s : State) (a : PoolSetParams) : State :=
  let s' : State := { s with pool := { s.pool with holdThreshold := a.hold, releaseThreshold := a.release } }
  if s.pool.held then
    if a.release < s.pool.free then { s' with pool := { s'.pool with held := false } } else s'
  else if s.pool.free < a.hold then s'.assertHold
  else s'

/-- The result fields of POOL_SET (R82, R204): both thresholds, the free count, pool hold. -/
def Pool.setResult (p : Pool) : List Byte :=
  encCount p.holdThreshold ++ encCount p.releaseThreshold ++ encCount p.free ++ encBit p.held

/-- POOL_SET's own judgement and effect (R82). -/
def State.poolSet (s : State) (c : Command) (a : PoolSetParams) : State :=
  if a.ok then ((s.setThresholds a).finish c .ok (s.setThresholds a).pool.setResult).arbitrate else s.finish c .badRange []

/-- POOL_SET begins execution (R82); its POOL_LOW notice may let the arbiter choose (R158). -/
def execPoolSet (s : State) : Host.Outcome State Fault Refusal :=
  running (fun s => s.runCommand Code.poolSet (readWhole readPoolSet) (fun _ => .matching) State.poolSet) s

end Sys2Proof.Machine
end

