-- ==== Sys2Proof/Machine/TrunkLink.lean ====
section
/-! DEFINITION. The meanings of the trunk's events: link, inbound frames, notice batches, and the ends of outbound frames (chapters 7 and 9). -/

namespace Sys2Proof.Machine

/-! ## Link (R148, R149) -/

/-- Link-up at a lane (R142): an OPEN or DRAINING lane with retained bundles starts its retransmit timer. -/
def Lane.linkUp (now : Word) (ln : Lane) : Lane := ln.startTimer true now

/-- The trunk receiver gains lock (R148, R142). -/
def State.gainLock (s : State) : State :=
  if s.trunk.linkUp then s
  else
    { s with trunk := { s.trunk with linkUp := true }, lanes := s.lanes.map (Lane.linkUp s.deviceTime) }.arbitrate

/-- LINK_UP (R148). -/
def execLinkUp (s : State) : Host.Outcome State Fault Refusal := running State.gainLock s

/-- Link-down at a lane (R141): G is set to S, and the retransmit timer stops. -/
def Lane.linkDown (ln : Lane) : Lane := { ln with ldu := { ln.ldu with g := ln.ldu.s, timer := .stopped } }

/-- Link-down at the MU (R183): each queued command is discarded and counted, and the session closes. -/
def Mu.linkDown (m : Mu) : Mu :=
  { m with epoch := none, queue := [], commandsDiscarded := satAdd m.commandsDiscarded m.queue.length }

/-- Link-down at the Trunk Interface (R149), but for the frame on the wire. -/
def Trunk.linkDown (t : Trunk) : Trunk :=
  { t with
    linkUp := false
    inbound := none
    responses := []
    counters := { t.counters with linkLosses := satInc t.counters.linkLosses } }

/-- The trunk receiver loses lock (R149, R141, R183, R182): a command that waited at its end for room ends at once, and phase 3 of a reset that waited for a cut frame ends. -/
def State.loseLock (s : State) : State :=
  if s.trunk.linkUp then
    let s1 := s.clearWire
    let s2 : State := { s1 with
      trunk := s1.trunk.linkDown
      lanes := s1.lanes.map Lane.linkDown
      mu := s1.mu.linkDown.cutEnded }
    if s.trunk.responses.length < Config.responsePlaces then s2
    else
      match s2.mu.readyResponse with
      | some (c, r) => s2.endCommand c r
      | none => s2
  else s

/-- LINK_DOWN (R149). -/
def execLinkDown (s : State) : Host.Outcome State Fault Refusal := running State.loseLock s

/-! ## Inbound frames (R151 to R155) -/

/-- A start delimiter on the inbound trunk (R151). -/
def Trunk.startInbound (t : Trunk) : Trunk :=
  if t.linkUp then
    { t with
      inbound := some (.receiving [])
      counters := if t.inbound.isSome then { t.counters with inLengthErrors := satInc t.counters.inLengthErrors } else t.counters }
  else t

/-- TRUNK_START_DELIMITER (R151). -/
def execTrunkStartDelimiter (s : State) : Host.Outcome State Fault Refusal :=
  running (fun s => { s with trunk := s.trunk.startInbound }) s

/-- A byte on the inbound trunk (R151): the 270th marks the frame too long. -/
def Trunk.inboundByte (t : Trunk) (b : Byte) : Trunk :=
  match t.inbound with
  | some (.receiving bytes) =>
    { t with inbound := some (if bytes.length < Config.inboundMaxBytes then .receiving (bytes ++ [b]) else .tooLong) }
  | some .tooLong | none => t

/-- TRUNK_BYTE_ARRIVAL (R151). -/
def execTrunkByteArrival (b : Byte) (s : State) : Host.Outcome State Fault Refusal :=
  running (fun s => { s with trunk := s.trunk.inboundByte b }) s

/-- TRUNK_ABORT_DELIMITER (R151): the inbound frame is discarded and counted nowhere. -/
def execTrunkAbortDelimiter (s : State) : Host.Outcome State Fault Refusal :=
  running (fun s => { s with trunk := { s.trunk with inbound := none } }) s

/-- An update of a good lane control frame is handed on (R153): to the LDU of its lane, or refused when it names a lane above 15. -/
def State.dispatchUpdate (s : State) (u : RawUpdate) : State :=
  match laneOf u.lane with
  | some l => { s with trunk := { s.trunk with handed := s.trunk.handed ++ [.update ⟨l, u.ack, u.grant, u.resendFrom⟩] } }
  | none => s.refuseUpdate

/-- The dispatch of a good inbound frame (R153, R155). -/
def State.dispatch (s : State) : InboundContent → State
  | .laneControl updates =>
    updates.foldl State.dispatchUpdate (s.countTrunk fun c => { c with laneUpdates := satAdd c.laneUpdates updates.length })
  | .command c => { s with trunk := { s.trunk with handed := s.trunk.handed ++ [.arrival c] } }

/-- The judgement of an inbound frame at its end delimiter, by the five checks in order (R152). -/
def State.judgeInbound (s : State) (bytes : List Byte) : State :=
  if bytes.length < 8 then s.countTrunk fun c => { c with inLengthErrors := satInc c.inLengthErrors }
  else if checkCorrect bytes = false then s.countTrunk fun c => { c with inCheckErrors := satInc c.inCheckErrors }
  else if bytes[0]? ≠ some s.trunk.unit then s.countTrunk fun c => { c with inUnitMismatch := satInc c.inUnitMismatch }
  else if bytes[1]? ≠ some kindLaneControl ∧ bytes[1]? ≠ some kindCommand then
    s.countTrunk fun c => { c with inUnknownKind := satInc c.inUnknownKind }
  else
    match parseInbound bytes with
    | some content => ((s.countTrunk fun c => { c with framesInOk := satInc c.framesInOk }).dispatch content).arbitrate
    | none => s.countTrunk fun c => { c with inLengthErrors := satInc c.inLengthErrors }

/-- An end delimiter on the inbound trunk (R151, R152). -/
def State.inboundEnd (s : State) : State :=
  let s' : State := { s with trunk := { s.trunk with inbound := none } }
  match s.trunk.inbound with
  | some (.receiving bytes) => s'.judgeInbound bytes
  | some .tooLong => s'.countTrunk fun c => { c with inLengthErrors := satInc c.inLengthErrors }
  | none => s

/-- TRUNK_END_DELIMITER (R152, R153, R155). -/
def execTrunkEndDelimiter (s : State) : Host.Outcome State Fault Refusal := running State.inboundEnd s

/-! ## Outbound frames (R156, R160, R162, R193) -/

/-- The batch the Notice Unit hands over (R193). -/
def NoticeUnit.batch (u : NoticeUnit) : NoticeBatch := ⟨u.frameSeq, u.overflow, u.queue.take Config.batchNotices⟩

/-- The Notice Unit after a batch (R193). -/
def NoticeUnit.afterBatch (u : NoticeUnit) : NoticeUnit :=
  { u with queue := u.queue.drop Config.batchNotices, frameSeq := u.frameSeq + 1, overflow := 0 }

/-- The arbiter's batch request is taken at the Notice Unit (R193, R158): a batch goes on the wire as a notice frame, or no batch lets the arbiter choose again at once. -/
def State.takeBatchRequest (s : State) : State :=
  match s.trunk.request with
  | .batch =>
    let s' : State := { s with trunk := { s.trunk with request := .none } }
    if s.sessionOpen && !s.notices.queue.isEmpty && s.trunk.outbound.isNone then
      { s' with
        trunk := { s'.trunk with outbound := some (.notices s.notices.batch (s.notices.batch.frame s.trunk.unit)) }
        notices := s.notices.afterBatch }
    else s'.arbitrate
  | .none | .sendStart _ => s

/-- NOTICE_BATCH_REQUEST (R193). -/
def execNoticeBatchRequest (s : State) : Host.Outcome State Fault Refusal := running State.takeBatchRequest s

/-- FRAMES_OUT adds one (R156). -/
def State.countFrameOut (s : State) : State := s.countTrunk fun c => { c with framesOut := satInc c.framesOut }

/-- A response or a notice frame ends with its end delimiter (R156). -/
def State.frameOutEnds (s : State) : State :=
  match s.trunk.outbound with
  | some (.response _ _) | some (.notices _ _) => s.clearWire.countFrameOut.arbitrate
  | some (.bundle _ _ _ _) | none => s

/-- OUTBOUND_FRAME_END (R156, R158). -/
def execOutboundFrameEnd (s : State) : Host.Outcome State Fault Refusal := running State.frameOutEnds s

/-- A bundle frame in mode SENDING ends with its end delimiter (R160). -/
def State.bundleFrameEnds (s : State) : State :=
  if s.trunk.sendingBundle none then s.clearWire.countFrameOut.arbitrate else s

/-- BUNDLE_FRAME_END (R128, R160). -/
def execBundleFrameEnd (s : State) : Host.Outcome State Fault Refusal := running State.bundleFrameEnds s

/-- A cut frame ends with its abort delimiter (R162); a phase 3 that waited for it ends (R163). -/
def State.cutFrameEnds (s : State) : State :=
  match s.trunk.outbound with
  | some (.bundle _ .cutting _ _) => ({ s.clearWire with mu := s.mu.cutEnded } : State).arbitrate
  | _ => s

/-- CUT_FRAME_END (R162). -/
def execCutFrameEnd (s : State) : Host.Outcome State Fault Refusal := running State.cutFrameEnds s

end Sys2Proof.Machine
end

