-- ==== Sys2Proof/Machine/Dispatch.lean ====
section
/-! DEFINITION. One arm per command: a direct call of its meaning. -/

namespace Sys2Proof.Machine

/-- The effect of a command on everything but the queue of commands. -/
def exec (i : Instr) (s : State) : Host.Outcome State Fault Refusal :=
  match i with
  | .powerOnReset => Sys2Proof.Machine.execPowerOnReset s
  | .resetRelease straps lowMicros => Sys2Proof.Machine.execResetRelease straps lowMicros s
  | .lineSignalGained port => Sys2Proof.Machine.execLineSignalGained port s
  | .lineSignalLost port => Sys2Proof.Machine.execLineSignalLost port s
  | .fieldStartDelimiter port => Sys2Proof.Machine.execFieldStartDelimiter port s
  | .fieldByteArrival port byte => Sys2Proof.Machine.execFieldByteArrival port byte s
  | .fieldEndDelimiter port => Sys2Proof.Machine.execFieldEndDelimiter port s
  | .frameTake => Sys2Proof.Machine.execFrameTake s
  | .lookup => Sys2Proof.Machine.execLookup s
  | .ruleSearch => Sys2Proof.Machine.execRuleSearch s
  | .learnInsert => Sys2Proof.Machine.execLearnInsert s
  | .laneResolution => Sys2Proof.Machine.execLaneResolution s
  | .placement => Sys2Proof.Machine.execPlacement s
  | .handoff lane => Sys2Proof.Machine.execHandoff lane s
  | .streamUpdate => Sys2Proof.Machine.execStreamUpdate s
  | .idleTimerExpiry lane => Sys2Proof.Machine.execIdleTimerExpiry lane s
  | .ageTimerExpiry lane => Sys2Proof.Machine.execAgeTimerExpiry lane s
  | .portSet => Sys2Proof.Machine.execPortSet s
  | .streamWrite => Sys2Proof.Machine.execStreamWrite s
  | .streamDelete => Sys2Proof.Machine.execStreamDelete s
  | .streamRead => Sys2Proof.Machine.execStreamRead s
  | .ruleStage => Sys2Proof.Machine.execRuleStage s
  | .ruleApply => Sys2Proof.Machine.execRuleApply s
  | .ruleRead => Sys2Proof.Machine.execRuleRead s
  | .classWrite => Sys2Proof.Machine.execClassWrite s
  | .spreadWrite => Sys2Proof.Machine.execSpreadWrite s
  | .mapRead => Sys2Proof.Machine.execMapRead s
  | .poolSet => Sys2Proof.Machine.execPoolSet s
  | .laneFlush => Sys2Proof.Machine.execLaneFlush s
  | .laneConfig => Sys2Proof.Machine.execLaneConfig s
  | .laneStart => Sys2Proof.Machine.execLaneStart s
  | .laneStop => Sys2Proof.Machine.execLaneStop s
  | .laneReset => Sys2Proof.Machine.execLaneReset s
  | .laneUpdate => Sys2Proof.Machine.execLaneUpdate s
  | .sendStart => Sys2Proof.Machine.execSendStart s
  | .retransmitTimerExpiry lane => Sys2Proof.Machine.execRetransmitTimerExpiry lane s
  | .linkUp => Sys2Proof.Machine.execLinkUp s
  | .linkDown => Sys2Proof.Machine.execLinkDown s
  | .trunkStartDelimiter => Sys2Proof.Machine.execTrunkStartDelimiter s
  | .trunkAbortDelimiter => Sys2Proof.Machine.execTrunkAbortDelimiter s
  | .trunkEndDelimiter => Sys2Proof.Machine.execTrunkEndDelimiter s
  | .commandArrival => Sys2Proof.Machine.execCommandArrival s
  | .commandEnd => Sys2Proof.Machine.execCommandEnd s
  | .noticeBatchRequest => Sys2Proof.Machine.execNoticeBatchRequest s
  | .outboundFrameEnd => Sys2Proof.Machine.execOutboundFrameEnd s
  | .bundleFrameEnd => Sys2Proof.Machine.execBundleFrameEnd s
  | .cutFrameEnd => Sys2Proof.Machine.execCutFrameEnd s
  | .openSession => Sys2Proof.Machine.execOpenSession s
  | .closeSession => Sys2Proof.Machine.execCloseSession s
  | .readStatus => Sys2Proof.Machine.execReadStatus s
  | .datapathReset => Sys2Proof.Machine.execDatapathReset s
  | .resetPhase3 => Sys2Proof.Machine.execResetPhase3 s
  | .resetPhase4 => Sys2Proof.Machine.execResetPhase4 s
  | .noticeRearm => Sys2Proof.Machine.execNoticeRearm s
  | .readCounters => Sys2Proof.Machine.execReadCounters s
  | .trunkByteArrival byte => Sys2Proof.Machine.execTrunkByteArrival byte s
  | .unknownCommandCode => Sys2Proof.Machine.execUnknownCommandCode s

end Sys2Proof.Machine
end

