-- ==== Sys2Proof/Machine/Step.lean ====
section
/-! DEFINITION. One step of the block: the command at the front of the queue, or, with none waiting, one microsecond of device time. -/

namespace Sys2Proof.Machine

/-- One microsecond passes (R206, 8.4): device time advances by one, and each lane's timers see the new time. While RESET_N is low device time is held at 0. -/
def State.tick (s : State) : State :=
  if s.resetN then
    { s with deviceTime := s.deviceTime + 1, lanes := s.lanes.map (Lane.tick (s.deviceTime + 1)) }
  else s

/-- One step: the first waiting command is taken whole, and with none waiting a microsecond passes. -/
def step (s : State) : Host.Outcome State Fault Refusal :=
  match s.pending with
  | c :: rest => exec c { s with pending := rest }
  | [] => .next s.tick

/-- The state with the command that a word spells at the front of the queue; unchanged where it spells none. -/
def State.withFetchWord (s : State) (nbits w : Nat) : State :=
  match Sys2Proof.decodeTableWord nbits w with
  | some c => { s with pending := c :: s.pending }
  | none => s

end Sys2Proof.Machine
end

