-- ==== Sys2Proof/Safety.lean ====
section
/-! DEFINITION. The words the statements use: how a command begins and is answered, the power-on values, and the invariants of each block. -/

namespace Sys2Proof.Machine

/-! ## The beginning and the answer of a command (R173, R176, R177) -/

/-- The part runs, no command is in execution, and `c`, with this code, is at the head of the command queue. -/
def State.begins (s : State) (code : Byte) (c : Command) (rest : List Command) : Prop :=
  s.resetN = true ∧ s.mu.executing = none ∧ s.mu.queue = c :: rest ∧ c.code = code

/-- The command has left the queue and is in execution with its response ready; nothing else is changed. -/
def State.answered (s : State) (c : Command) (rest : List Command) (status : Status) (result : List Byte) : State :=
  { s with mu := { s.mu with queue := rest, executing := some ⟨c, .done ⟨c.seq, c.code, status, false, result⟩⟩ } }

/-- The code of each management command (8.7); the other events have none. -/
def commandCode : Instr → Option Byte
  | .openSession => some 0x01
  | .closeSession => some 0x02
  | .readStatus => some 0x03
  | .datapathReset => some 0x04
  | .portSet => some 0x10
  | .streamWrite => some 0x20
  | .streamDelete => some 0x21
  | .streamRead => some 0x22
  | .ruleStage => some 0x30
  | .ruleApply => some 0x31
  | .ruleRead => some 0x32
  | .classWrite => some 0x33
  | .spreadWrite => some 0x34
  | .mapRead => some 0x35
  | .poolSet => some 0x40
  | .laneFlush => some 0x50
  | .laneConfig => some 0x51
  | .laneStart => some 0x52
  | .laneStop => some 0x53
  | .laneReset => some 0x54
  | .noticeRearm => some 0x60
  | .readCounters => some 0x61
  | _ => none

/-- An optional two-byte field stands at the front of these bytes, and so on for n of them, to the last byte (R202). -/
def optionalCounts : Nat → List Byte → Bool
  | 0, bytes => bytes.isEmpty
  | n + 1, 0x00 :: rest => optionalCounts n rest
  | n + 1, 0x01 :: _ :: _ :: rest => optionalCounts n rest
  | _ + 1, _ => false

/-- Check 2 of R174 by the encodings of R202 and R203: the bytes hold exactly the command's parameter fields. -/
def parametersHold : Instr → List Byte → Bool
  | .openSession, bytes | .closeSession, bytes | .datapathReset, bytes | .ruleApply, bytes | .mapRead, bytes => bytes.isEmpty
  | .laneFlush, bytes | .laneStart, bytes | .laneStop, bytes | .laneReset, bytes => bytes.length == 1
  | .portSet, bytes | .ruleRead, bytes => bytes.length == 2
  | .poolSet, bytes => bytes.length == 4
  | .streamDelete, bytes => bytes.length == 6
  | .ruleStage, bytes => bytes.length == 17
  | .readStatus, _ :: bytes => optionalCounts 1 bytes
  | .readCounters, [_, 0x00, _] | .readCounters, [_, 0x01, _, _, _] => true
  | .streamWrite, [_, _, _, _, _, _, _, 0x00, _, _] | .streamWrite, [_, _, _, _, _, _, _, 0x01, _, _, _, _] => true
  | .streamRead, sel :: bytes =>
    if sel = 0x00 then bytes.length == 7 else if sel = 0x01 then bytes.length == 3 else bytes.length == 3 || bytes.length == 7
  | .classWrite, _ :: _ :: 0x00 :: 0x00 :: bytes | .classWrite, _ :: _ :: 0x01 :: _ :: 0x00 :: bytes
  | .classWrite, _ :: _ :: 0x00 :: 0x01 :: _ :: bytes | .classWrite, _ :: _ :: 0x01 :: _ :: 0x01 :: _ :: bytes => optionalCounts 1 bytes
  | .spreadWrite, _ :: n :: bytes =>
    match bytes.drop n.toNat with
    | [0x00] | [0x01, _, _, _] => decide (n.toNat ≤ bytes.length)
    | _ => false
  | .laneConfig, _ :: bytes => optionalCounts 7 bytes
  | .noticeRearm, _ :: n :: bytes => bytes.length == n.toNat
  | _, _ => false

/-- The session need of a command (8.7): the clear flag of the two reads that may clear is their last parameter byte (R203). -/
def sessionNeedOf (i : Instr) (bytes : List Byte) : SessionNeed :=
  match i with
  | .openSession => .exempt
  | .readStatus | .ruleRead | .mapRead => .readOnly
  | .streamRead | .readCounters => if bytes.getLast? = some 0x00 then .readOnly else .matching
  | _ => .matching

/-- The session check of R175 passes: the epoch matches the open session, or is 0 for a command that is read-only, or the command is exempt. -/
def sessionAllows (need : SessionNeed) (epoch : Word) (current : Option Word) : Prop :=
  match need with
  | .exempt => True
  | .readOnly => epoch = 0 ∨ current = some epoch
  | .matching => current = some epoch

/-- The bytes of an optional two-byte field and the number it gives (R202). -/
def OptionalCount (bytes : List Byte) (value : Option Nat) : Prop :=
  (bytes = [0x00] ∧ value = none) ∨ ∃ hi lo : Byte, bytes = [0x01, hi, lo] ∧ value = some (256 * hi.toNat + lo.toNat)

/-! ## The stream table as its rules see it (R27, R28, R33) -/

/-- A slot lies in the bucket that a key folds to (R27, R28). -/
def Key.inBucket (k : Key) (n : StreamNo) : Prop :=
  n.val / 4 = (k.station.toNat + 131 * k.tag.toNat + 8191 * k.port.val) % 512

/-- The slot holds an entry with this key, and no lower slot of its bucket does (R33). -/
def StreamTable.HasKey (t : StreamTable) (k : Key) (n : StreamNo) (e : StreamEntry) : Prop :=
  k.inBucket n ∧ (t.slot n).entry = some e ∧ e.key = k
    ∧ ∀ (m : StreamNo) (f : StreamEntry), k.inBucket m → m < n → (t.slot m).entry = some f → f.key ≠ k

/-- No occupied slot of the key's bucket holds the key (R33). -/
def StreamTable.LacksKey (t : StreamTable) (k : Key) : Prop :=
  ∀ (n : StreamNo) (e : StreamEntry), k.inBucket n → (t.slot n).entry = some e → e.key ≠ k

/-- The lowest-numbered free slot of the key's bucket (R28). -/
def StreamTable.FirstFree (t : StreamTable) (k : Key) (n : StreamNo) : Prop :=
  k.inBucket n ∧ (t.slot n).entry = none ∧ ∀ m : StreamNo, k.inBucket m → m < n → (t.slot m).entry ≠ none

/-- All four slots of the key's bucket are occupied (R28). -/
def StreamTable.BucketFull (t : StreamTable) (k : Key) : Prop :=
  ∀ n : StreamNo, k.inBucket n → (t.slot n).entry ≠ none

/-! ## The record in progress and the rule it meets (R47, R51, R52) -/

/-- The part runs, and the Classifier works on record `r` of frame `f`, which has reached a stage. -/
def State.inStage (s : State) (f : FrameInProgress) (r : FieldRecord) (stage : Stage) : Prop :=
  s.resetN = true ∧ s.classifier.frame = some f ∧ f.records[f.index]? = some r ∧ f.stage = stage

/-- A rule matches a key: its port set has the port, and where a mask has a one the bits agree (R52). -/
def Rule.Matches (rule : Rule) (k : Key) : Prop :=
  rule.portSet.getLsbD k.port.val = true
    ∧ (∀ b, rule.stationMask.getLsbD b = true → k.station.getLsbD b = rule.stationValue.getLsbD b)
    ∧ (∀ b, rule.tagMask.getLsbD b = true → k.tag.getLsbD b = rule.tagValue.getLsbD b)

/-- The first valid matching rule of the active list (R52). -/
def RuleSet.Selects (rs : RuleSet) (k : Key) (i : RuleIndex) : Prop :=
  rs.active[i].valid = true ∧ rs.active[i].Matches k
    ∧ ∀ j : RuleIndex, j < i → ¬ (rs.active[j].valid = true ∧ rs.active[j].Matches k)

/-- The port that the search from the round-robin position finds first, with the frame it offers and the complete frames behind it (R17, R48). -/
def State.Offers (s : State) (p : PortId) (frame : List Byte) (rest : List (List Byte)) : Prop :=
  (s.port p).taken = none ∧ (s.port p).complete = frame :: rest
    ∧ ∃ k : PortId, p = s.classifier.position + k
      ∧ ∀ j : PortId, j < k → (s.port (s.classifier.position + j)).taken ≠ none ∨ (s.port (s.classifier.position + j)).complete = []

/-- The bytes of an encoded record of a field frame (R200). -/
def FieldRecord.encode (r : FieldRecord) : List Byte := enc16 r.tag ++ enc32 r.timestamp ++ enc8 r.value.length ++ r.value

/-! ## The power-on values (R5, R46, R47, R63, R67, R74, R89, R92, R113, R146, R166, R185) -/

/-- An FPR at power-on (R5). -/
def Port.atPowerOn (q : Port) : Prop :=
  q.state = .disabled ∧ q.taken = none ∧ q.complete = [] ∧ q.reception = none ∧ q.fifoHigh = false ∧ q.badCount = 0
    ∧ q.resetMark = false ∧ q.counters = ⟨0, 0, 0, 0, 0, 0, 0, 0, 0, 0, 0, 0⟩

/-- A lane at power-on (R89, R92, R113). -/
def Lane.atPowerOn (ln : Lane) : Prop :=
  ln.asm.openB = none ∧ ln.asm.pendingB = none ∧ ln.asm.idle = .stopped ∧ ln.asm.age = .stopped
    ∧ ln.asm.config = ⟨1024, 64, 100, 100⟩ ∧ ln.asm.counters = ⟨0, 0, 0, 0, 0, 0, 0, 0, 0, 0, 0, 0, 0⟩
    ∧ ln.ldu.state = .disabled ∧ ln.ldu.a = 0 ∧ ln.ldu.r = 0 ∧ ln.ldu.s = 0 ∧ ln.ldu.c = 0 ∧ ln.ldu.g = 0
    ∧ ln.ldu.ready = [] ∧ ln.ldu.retention = [] ∧ ln.ldu.timer = .stopped ∧ ln.ldu.retry = 0 ∧ ln.ldu.drainRequested = false
    ∧ ln.ldu.config = ⟨8, 3, 20⟩ ∧ ln.ldu.counters = ⟨0, 0, 0, 0, 0⟩

/-- The tables at power-on (R46, R63, R67). -/
def State.tablesAtPowerOn (s : State) : Prop :=
  (∀ n : StreamNo, (s.streams.slot n).entry = none ∧ (s.streams.slot n).generation = 0) ∧ s.streams.learned = 0
    ∧ s.streams.learnFailed = 0
    ∧ (∀ i : RuleIndex, s.rules.active[i] = ⟨false, 0, 0, 0, 0, 0, .drop, 0, false, .keep⟩
        ∧ s.rules.staged[i] = ⟨false, 0, 0, 0, 0, 0, .drop, 0, false, .keep⟩) ∧ s.rules.version = 0
    ∧ (∀ c : ClassId, s.map.classes[c] = .unset) ∧ (∀ i : SpreadIndex, s.map.spread[i] = none) ∧ s.map.salt = 0

/-- The Classifier, the pool, the Trunk Interface, the MU and the Notice Unit at power-on (R47, R74, R146, R166, R185). -/
def State.unitsAtPowerOn (s : State) : Prop :=
  s.classifier = ⟨0, none, false, 0, 0, 0, 0, 0⟩ ∧ s.pool = ⟨4096, 256, 512, false, 0⟩
    ∧ s.trunk.linkUp = false ∧ s.trunk.inbound = none ∧ s.trunk.outbound = none ∧ s.trunk.responses = [] ∧ s.trunk.lastServed = 15
    ∧ s.trunk.request = .none ∧ s.trunk.handed = []
    ∧ s.trunk.counters = ⟨0, 0, 0, 0, 0, 0, 0, 0, 0, 0, 0, 0⟩
    ∧ s.mu = ⟨none, 0, [], none, none, 0, 0, 0, 0, 0⟩
    ∧ (∀ i : SourceNo, s.notices.source i = ⟨.armed, 0⟩) ∧ s.notices.queue = [] ∧ s.notices.overflow = 0
    ∧ s.notices.frameSeq = 0 ∧ s.notices.lost = 0

/-- Every block holds its power-on values, and device time is 0 (R206). -/
def State.atPowerOn (s : State) : Prop :=
  s.deviceTime = 0 ∧ (∀ p, (s.port p).atPowerOn) ∧ (∀ l, (s.lane l).atPowerOn) ∧ s.tablesAtPowerOn ∧ s.unitsAtPowerOn

/-! ## Steps the invariants speak of -/

/-- The next command is not the end of a low level of RESET_N below its minimum, which leaves the state undetermined (R206). -/
def State.determined (s : State) : Prop :=
  ∀ straps micros rest, s.pending = .resetRelease straps micros :: rest → s.resetN = true ∨ 10 ≤ micros

/-! ## Field ports (R4, R10, R12, R18, R20) -/

/-- What holds of every FPR: the FIFO and its frames within their sizes, the flag by its marks, FAULT by the count, UP and DOWN by the signal, and ACCEPT frames on UP ports alone. -/
structure Port.Sound (q : Port) : Prop where
  fill : q.fill ≤ 4096
  accepted : ∀ bytes, q.reception = some (.accept bytes) → bytes.length ≤ 1024
  accepting : q.accepting = true → q.state = .up
  high : 3072 ≤ q.fill → q.fifoHigh = true
  low : q.fill ≤ 1024 → q.fifoHigh = false
  bad : q.badCount ≤ 16
  fault : q.badCount = 16 → q.state = .fault ∨ q.state = .disabled
  up : q.state = .up → q.signal = true
  down : q.state = .down → q.signal = false

/-- Every field port is sound, and its line signal indication is what its line carries (R4, R5). -/
def State.PortsSound (s : State) : Prop := ∀ p, (s.port p).Sound ∧ (s.port p).signal = s.line p

/-! ## Link, session and management queues (R149, R166, R167, R173, R183) -/

/-- While the link is DOWN there is no session, no queued command, no response, and no frame in either direction; a session's epoch is the last epoch used and not 0; the two queues hold at most 8. -/
structure State.LinkSound (s : State) : Prop where
  down : s.trunk.linkUp = false →
    s.mu.epoch = none ∧ s.mu.queue = [] ∧ s.trunk.responses = [] ∧ s.trunk.inbound = none ∧ s.trunk.outbound = none
  epoch : ∀ e, s.mu.epoch = some e → e = s.mu.lastEpoch ∧ e ≠ 0
  commands : s.mu.queue.length ≤ 8
  responses : s.trunk.responses.length ≤ 8

/-! ## Notices (R185 to R191) and pool hold (R74, R79, R80, R82) -/

/-- A source that is not PENDING has gathered nothing, a PENDING one has; the queue holds at most 32 notices, each for at least one event. -/
structure NoticeUnit.Sound (u : NoticeUnit) : Prop where
  calm : ∀ i, (u.source i).arming ≠ .pending → (u.source i).count = 0
  gathered : ∀ i, (u.source i).arming = .pending → (u.source i).count ≠ 0
  places : u.queue.length ≤ 32
  counted : ∀ n ∈ u.queue, n.count ≠ 0

/-- The thresholds lie in their ranges; a released pool hold has at least the hold threshold free, an asserted one at most the release threshold. -/
structure Pool.Sound (p : Pool) : Prop where
  order : p.holdThreshold < p.releaseThreshold
  range : p.releaseThreshold ≤ 4095
  released : p.held = false → p.holdThreshold ≤ p.free
  asserted : p.held = true → p.free ≤ p.releaseThreshold

/-! ## Stream table (R28) -/

/-- No two entries share a key, and each entry sits in the bucket its key folds to. -/
structure StreamTable.Sound (t : StreamTable) : Prop where
  place : ∀ (n : StreamNo) (e : StreamEntry), (t.slot n).entry = some e → n.val / 4 = e.key.bucket
  unique : ∀ (n m : StreamNo) (e f : StreamEntry),
    (t.slot n).entry = some e → (t.slot m).entry = some f → e.key = f.key → n = m

/-! ## The phases of DATAPATH_RESET (R22, R23, R72, R180) -/

/-- The reset is in progress at the field ports: from phase 1 to phase 7. -/
def State.resetAtPorts (s : State) : Bool :=
  match s.mu.executing with
  | some ⟨_, .abandoning⟩ | some ⟨_, .phase3Due⟩ | some ⟨_, .cutting _⟩ | some ⟨_, .phase4Due _⟩ => true
  | _ => false

/-- The reset's second phase is under way. -/
def State.resetAbandoning (s : State) : Bool :=
  match s.mu.executing with
  | some ⟨_, .abandoning⟩ => true
  | _ => false

/-- The reset has passed its third phase and is in execution. -/
def State.resetPastWire (s : State) : Bool :=
  match s.mu.executing with
  | some ⟨_, .phase4Due _⟩ | some ⟨_, .resetDone _⟩ => true
  | _ => false

/-- The ports are marked exactly during the reset's phases 1 to 7 and then offer nothing and accept nothing; the abandon request is set exactly in phase 2, while the Classifier works; after phase 2 the Classifier is IDLE, and after phase 3 no bundle frame is on the wire. -/
structure State.PhasesSound (s : State) : Prop where
  marked : ∀ p, (s.port p).resetMark = s.resetAtPorts
  empty : ∀ p, s.resetAtPorts = true → (s.port p).complete = [] ∧ (s.port p).accepting = false
  abandon : s.classifier.abandon = s.resetAbandoning
  working : s.classifier.abandon = true → s.classifier.frame.isSome = true
  idle : s.resetAtPorts = true → s.resetAbandoning = false → s.classifier.frame = none
  wire : s.resetPastWire = true → s.trunk.bundleOnWire = false

/-! ## Lanes (R75, R89, R100, R113 to R117, R130) -/

/-- A bundle within its lane's limits, with its payload bytes and cells as its records make them (R75, R91, R100). -/
structure Bundle.Sound (config : AssemblyConfig) (l : LaneId) (b : Bundle) : Prop where
  lane : b.lane = l
  payload : b.payload = (b.records.map PlacedRecord.size).sum
  cells : b.cells = if b.records = [] then 0 else cellsFor b.payload
  records : b.records.length ≤ config.recordLimit
  size : b.records ≠ [] → 16 + b.payload ≤ config.maxBytes

/-- A list of closed bundles numbered from a first sequence on, each in one state (R115). -/
def numbered (first : SeqNo) (state : BundleState) (bundles : List Bundle) : Prop :=
  ∀ i b, bundles[i]? = some b →
    b.seq = some (first + BitVec.ofNat 16 i) ∧ b.state = state ∧ b.records ≠ [] ∧ b.closeReason.isSome = true

/-- What holds of every lane. -/
structure Lane.Sound (l : LaneId) (ln : Lane) : Prop where
  /-- R117: a DISABLED lane holds nothing, and its counters are zero. -/
  disabled : ln.ldu.state = .disabled →
    ln.asm.openB = none ∧ ln.asm.pendingB = none ∧ ln.ldu.ready = [] ∧ ln.ldu.retention = [] ∧ ln.ldu.a = 0 ∧ ln.ldu.r = 0
      ∧ ln.ldu.s = 0 ∧ ln.ldu.c = 0 ∧ ln.ldu.g = 0 ∧ ln.ldu.retry = 0
  /-- R89: a lane in service has an open bundle or a pending bundle, never both. -/
  oneBundle : ln.ldu.state ≠ .disabled → ln.asm.openB.isSome = ln.asm.pendingB.isNone
  /-- R113, R136: the configuration lies in its ranges. -/
  window : 1 ≤ ln.ldu.config.window ∧ ln.ldu.config.window ≤ 32
  limits : 1 ≤ ln.asm.config.recordLimit ∧ 128 ≤ ln.asm.config.maxBytes ∧ ln.asm.config.maxBytes ≤ 4096
  /-- R115: A, R, S and C lie in that order, with S − A at most W and C − S at most 32. -/
  cursor : distance ln.ldu.a ln.ldu.r ≤ distance ln.ldu.a ln.ldu.s
  sent : distance ln.ldu.a ln.ldu.s ≤ ln.ldu.config.window
  waiting : distance ln.ldu.s ln.ldu.c ≤ 32
  /-- R115: the retention list holds A to S − 1 and the ready queue S to C − 1, each once, in order. -/
  retained : ln.ldu.retention.length = distance ln.ldu.a ln.ldu.s ∧ numbered ln.ldu.a .sent ln.ldu.retention
  readied : ln.ldu.ready.length = distance ln.ldu.s ln.ldu.c ∧ numbered ln.ldu.s .ready ln.ldu.ready
  /-- R116: S never passes G, and G − A never exceeds W. -/
  grant : distance ln.ldu.a ln.ldu.s ≤ distance ln.ldu.a ln.ldu.g ∧ distance ln.ldu.a ln.ldu.g ≤ ln.ldu.config.window
  /-- R88, R98, R105: the open bundle, below the record limit until it closes, and the pending bundle. -/
  opened : ∀ b, ln.asm.openB = some b → b.state = .open ∧ b.seq = none ∧ (b.records = [] → b.closeReason = none)
    ∧ (b.closeReason = none → b.records.length < ln.asm.config.recordLimit)
  pending : ∀ b, ln.asm.pendingB = some b →
    b.state = .closePending ∧ b.seq = none ∧ b.records ≠ [] ∧ b.closeReason.isSome = true
  /-- R75, R100: every bundle of the lane. -/
  bundles : ∀ b ∈ ln.bundles, b.Sound ln.asm.config l
  /-- R101, R102, R104: the idle and age timers run only while the open bundle holds records and is not closed. -/
  timers : (ln.asm.idle ≠ .stopped ∨ ln.asm.age ≠ .stopped) → ln.openRecords ≠ [] ∧ ln.offered = none
  /-- R113, R131: the retry count is within the limit, and one above it in STALLED alone. -/
  retries : ln.ldu.config.retryLimit ≤ 15 ∧ ln.ldu.retry ≤ ln.ldu.config.retryLimit + 1
    ∧ (ln.ldu.state ≠ .stalled → ln.ldu.retry ≤ ln.ldu.config.retryLimit)
  /-- R134: the drain-requested flag is set in STALLED alone. -/
  drain : ln.ldu.drainRequested = true → ln.ldu.state = .stalled

/-- The retransmit timer runs only where R130 lets it run. -/
def Lane.TimerSound (linkUp : Bool) (ln : Lane) : Prop := ln.ldu.timer ≠ .stopped → ln.mayRun linkUp = true

/-- Every lane is sound, its retransmit timer too, and the records in classification have values of at most 64 bytes (R49). -/
structure State.LanesSound (s : State) : Prop where
  lanes : ∀ l, (s.lane l).Sound l
  timers : ∀ l, (s.lane l).TimerSound s.trunk.linkUp
  values : ∀ f, s.classifier.frame = some f → ∀ r ∈ f.records, r.value.length ≤ 64

/-! ## Cells (R78) -/

/-- The cells that a lane's bundles hold. -/
def Lane.cells (ln : Lane) : Nat := (ln.bundles.map Bundle.cells).sum

/-- The cells that the Trunk Interface holds: those of a RELEASING bundle on the wire (R77). -/
def State.wireCells (s : State) : Nat :=
  match s.trunk.outbound with
  | some (.bundle _ _ (.releasing b) _) => b.cells
  | _ => 0

/-- The free count equals 4096 minus the cells held (R78). -/
def State.CellsBalance (s : State) : Prop := s.pool.free + ∑ l : LaneId, (s.lane l).cells + s.wireCells = 4096

end Sys2Proof.Machine
end

