-- ==== Sys2Proof/Certificates/Slice0/Obligations.lean ====
section
/-! DEFINITION. The statements for the provers, chapter by chapter. -/

open Sys2Proof Sys2Proof.Machine

/-! ## The queue of commands -/

/-- A step takes the command at the front of the queue and runs it on the state with the rest. Model's own: assumption 1. -/
def Obligations.StepRunsTheFrontCommand : Prop :=
  ∀ (c : Instr) (rest : List Instr) (s : State), step { s with pending := c :: rest } = exec c { s with pending := rest }

/-- With no command waiting, a step is one microsecond of device time (R206, 8.4): the three timers of every lane see the new time, and nothing else changes. While RESET_N is low, device time stands at 0 and the step changes nothing. That an idle step is a microsecond, and the mark of a reached expiry, are the model's own: assumptions 1 and 13. -/
def Obligations.IdleStepIsOneMicrosecond : Prop :=
  ∀ s : State, s.pending = [] →
    (s.resetN = false → step s = .next s)
    ∧ (s.resetN = true → ∃ t, step s = .next t ∧ t = { s with deviceTime := s.deviceTime + 1, lanes := t.lanes }
      ∧ ∀ l : LaneId, ∃ i a r : Timer,
          t.lane l = ⟨{ (s.lane l).asm with idle := i, age := a }, { (s.lane l).ldu with timer := r }⟩
          ∧ (∀ x ∈ [((s.lane l).asm.idle, i), ((s.lane l).asm.age, a), ((s.lane l).ldu.timer, r)],
            (x.1 = .stopped ∧ x.2 = .stopped)
            ∨ ∃ e reached, x.1 = .running e reached ∧ x.2 = .running e (reached || e == s.deviceTime + 1)))

/-- No command touches the queue of commands. Model's own: assumption 1. -/
def Obligations.ExecKeepsTheQueue : Prop :=
  ∀ (c : Instr) (s t : State), exec c s = .next t → t.pending = s.pending

/-- A command answers a next state in every state, unless it names a port above 7 or a lane above 15: then it stops by name. The stop is the model's own (assumption 16), and so is the answer of a command whose event cannot occur (assumption 2). -/
def Obligations.OnlyIllFormedCommandsStop : Prop :=
  (∀ (c : Instr) (s : State), c.wellFormed = true → ∃ t, exec c s = .next t)
  ∧ (∀ (p : Nat) (b : Byte) (s : State), 8 ≤ p → ∀ c ∈ [Instr.lineSignalGained p, .lineSignalLost p, .fieldStartDelimiter p,
      .fieldByteArrival p b, .fieldEndDelimiter p], exec c s = .fault .noSuchPort)
  ∧ (∀ (l : Nat) (s : State), 16 ≤ l → ∀ c ∈ [Instr.handoff l, .idleTimerExpiry l, .ageTimerExpiry l, .retransmitTimerExpiry l],
      exec c s = .fault .noSuchLane)

/-! ## The reset line (R5, R147, R206) -/

/-- While RESET_N is low every block holds its power-on values: POWER_ON_RESET sets them, whatever the state was; the line signal indications are those of the lines, the unit number stays, and so do the lines and the model's own queue and count. The state after reset holds them too, with RESET_N released and no line carrying a signal. What the indications and the unit number are while RESET_N is low is the model's own (assumption 18), and so are the level, the straps and the lines of the state after reset (assumption 3). -/
def Obligations.ResetGivesThePowerOnValues : Prop :=
  State.reset.atPowerOn ∧ State.reset.resetN = true ∧ State.reset.pending = [] ∧ (∀ p, State.reset.line p = false)
  ∧ ∀ s : State, ∃ t, exec .powerOnReset s = .next t ∧ t.atPowerOn ∧ t.resetN = false ∧ t.trunk.unit = s.trunk.unit
    ∧ (∀ p, (t.port p).signal = s.line p) ∧ t.lines = s.lines ∧ t.pending = s.pending ∧ t.freeCount = s.freeCount

/-- The release of RESET_N reads the straps into the unit number, and nothing else changes (R147, R206). After a low level shorter than 10 µs the state is the free value of that draw, whatever it is, released, with the lines as they are: assumption 4. With RESET_N high there is no release: assumption 2. While RESET_N is low every block holds its values: no well-formed command but the two of the reset line and the two of the line signal, exempt by assumption 18, changes anything. -/
def Obligations.ResetLineHoldsAndReleases : Prop :=
  (∀ (straps : Byte) (micros : Nat) (s : State),
    (s.resetN = false → 10 ≤ micros →
      exec (.resetRelease straps micros) s = .next { s with resetN := true, trunk := { s.trunk with unit := straps } })
    ∧ (s.resetN = false → micros < 10 →
      exec (.resetRelease straps micros) s =
        .next { Config.undeterminedState s.freeCount with resetN := true, lines := s.lines, freeCount := s.freeCount + 1, pending := s.pending })
    ∧ (s.resetN = true → exec (.resetRelease straps micros) s = .next s))
  ∧ (∀ (c : Instr) (s : State), s.resetN = false → c.wellFormed = true → c ≠ .powerOnReset →
    (∀ straps micros, c ≠ .resetRelease straps micros) → (∀ p, c ≠ .lineSignalGained p) → (∀ p, c ≠ .lineSignalLost p) →
    exec c s = .next s)

/-! ## Field ports (chapter 1) -/

/-- The eight ports and lines, each read and replaced alone. LINE_SIGNAL_GAINED: the line carries a signal, the indication becomes present, and a DOWN port moves to UP (R4). LINE_SIGNAL_LOST: the line carries none, the indication becomes absent, an UP port moves to DOWN, and a frame in reception ends: an ACCEPT frame that is not spent leaves the FIFO and counts TRUNCATED (R15), a spent one counts nothing, a DISCARD frame counts DISABLED_DISCARDS (R16) and a RESET frame RESET_DISCARDS (R23). That the indication follows the line while RESET_N is low too is the model's own: assumption 18. -/
def Obligations.SignalChangesMoveThePort : Prop :=
  (∀ (s : State) (p : PortId) (x : Port), s.line p = s.lines[p] ∧ s.port p = s.ports[p]
    ∧ (s.setPort p x).port p = x ∧ (∀ q, q ≠ p → (s.setPort p x).port q = s.port q)
    ∧ s.setPort p x = { s with ports := (s.setPort p x).ports })
  ∧ (∀ (p : PortId) (s : State), exec (.lineSignalGained p) s =
    .next (({ s with lines := s.lines.set p.val true p.isLt } : State).setPort p { s.port p with signal := true, state := if (s.port p).state = .down then .up else (s.port p).state }))
  ∧ (∀ (p : PortId) (s : State), ∃ q : Port, exec (.lineSignalLost p) s =
      .next (({ s with lines := s.lines.set p.val false p.isLt } : State).setPort p q)
    ∧ q.signal = false ∧ q.state = (if (s.port p).state = .up then .down else (s.port p).state)
    ∧ q.reception = none ∧ q.taken = (s.port p).taken ∧ q.complete = (s.port p).complete
    ∧ q.badCount = (s.port p).badCount ∧ q.resetMark = (s.port p).resetMark
    ∧ q.counters = (match (s.port p).reception with
        | none | some .spent => (s.port p).counters
        | some (.accept _) | some .tooLong =>
          { (s.port p).counters with truncated := satInc (s.port p).counters.truncated }
        | some .discard => { (s.port p).counters with disabledDiscards := satInc (s.port p).counters.disabledDiscards }
        | some .reset => { (s.port p).counters with resetDiscards := satInc (s.port p).counters.resetDiscards })
    ∧ q.fifoHigh = (if (s.port p).accepting then (s.port p).fifoHigh && decide (1024 < q.fill) else (s.port p).fifoHigh))

/-- A frame in reception is an ACCEPT frame that is not spent when it stores or is too long. A start delimiter begins a frame in the mode of R9's table, after the frame in reception has ended as by a signal loss (R15, R16, R23). A DOWN port outside a reset starts none: assumption 15. -/
def Obligations.StartDelimiterGivesTheMode : Prop :=
  (∀ q : Port,
    (q.accepting = true ↔ q.reception = some .tooLong ∨ ∃ bytes, q.reception = some (.accept bytes))
    ∧ (q.reception = none → q.cutReception = q)
    ∧ (q.reception ≠ none → ∃ high, q.cutReception = { q with
        reception := none, fifoHigh := high
        counters := (match q.reception with
          | none | some .spent => q.counters
          | some (.accept _) | some .tooLong => { q.counters with truncated := satInc q.counters.truncated }
          | some .discard => { q.counters with disabledDiscards := satInc q.counters.disabledDiscards }
          | some .reset => { q.counters with resetDiscards := satInc q.counters.resetDiscards }) }
      ∧ high = (if q.accepting then q.fifoHigh && decide (1024 < q.cutReception.fill) else q.fifoHigh)))
  ∧ ∀ (p : PortId) (s : State), s.resetN = true → ∃ q : Port, exec (.fieldStartDelimiter p) s = .next (s.setPort p q)
    ∧ ((s.port p).resetMark = true → q = { (s.port p).cutReception with reception := some .reset })
    ∧ ((s.port p).resetMark = false → (s.port p).state = .up → q = { (s.port p).cutReception with reception := some (.accept []) })
    ∧ ((s.port p).resetMark = false → (s.port p).state = .disabled ∨ (s.port p).state = .fault →
        q = { (s.port p).cutReception with reception := some .discard })
    ∧ ((s.port p).resetMark = false → (s.port p).state = .down → q = s.port p)

/-- The fill is the bytes stored for the taken frame, the complete frames and the ACCEPT frame in reception (R10). A byte of an ACCEPT frame: the 1025th makes the frame too long whatever the fill (R12); else one that finds the fill at 4096 makes it overflow, counts OVERFLOWS and raises INGRESS_OVERFLOW (R11); else it is stored, and a fill of 3072 or more sets FIFO-high (R10, R20). A frame that leaves the FIFO releases its bytes and clears FIFO-high at 1024 or less. A byte with no ACCEPT frame storing is ignored (R9). -/
def Obligations.FieldByteIsStoredOrEndsTheFrame : Prop :=
  (∀ q : Port, q.fill = (q.taken.getD []).length + (q.complete.map List.length).sum
    + (match q.reception with | some (.accept bytes) => bytes.length | _ => 0))
  ∧ ∀ (p : PortId) (b : Byte) (s : State), s.resetN = true →
    (∀ bytes, (s.port p).reception = some (.accept bytes) →
      (1024 ≤ bytes.length → exec (.fieldByteArrival p b) s = .next (s.setPort p { s.port p with
        reception := some .tooLong
        fifoHigh := (s.port p).fifoHigh && decide (1024 < (s.port p).fill - bytes.length) }))
      ∧ (bytes.length < 1024 → 4096 ≤ (s.port p).fill → exec (.fieldByteArrival p b) s =
        .next (((s.setPort p { s.port p with
          reception := some .spent
          counters := { (s.port p).counters with overflows := satInc (s.port p).counters.overflows }
          fifoHigh := (s.port p).fifoHigh && decide (1024 < (s.port p).fill - bytes.length) }).raise
            (srcIngressOverflow p)).arbitrate))
      ∧ (bytes.length < 1024 → (s.port p).fill < 4096 → exec (.fieldByteArrival p b) s = .next (s.setPort p { s.port p with
        reception := some (.accept (bytes ++ [b]))
        fifoHigh := (s.port p).fifoHigh || decide (3072 ≤ (s.port p).fill + 1) })))
    ∧ ((∀ bytes, (s.port p).reception ≠ some (.accept bytes)) → exec (.fieldByteArrival p b) s = .next s)

/-- An end delimiter judges an ACCEPT frame by length, frame check and kind in that order (R13): a good frame joins the complete frames, a bad one is removed and raises the consecutive-bad count, which at 16 puts the port in FAULT and raises PORT_FAULT (R18). A spent frame counts nothing, a DISCARD or RESET frame counts its discard (R16, R23). With no frame in reception nothing changes: assumption 2. -/
def Obligations.EndDelimiterJudgesTheFrame : Prop :=
  ∀ (p : PortId) (s : State), s.resetN = true → ∃ q : Port, ∃ fault : Bool,
    exec (.fieldEndDelimiter p) s =
      .next (if fault then ((s.setPort p q).raise (srcPortFault p)).arbitrate else s.setPort p q)
    ∧ q.reception = none ∧ q.taken = (s.port p).taken ∧ q.signal = (s.port p).signal ∧ q.resetMark = (s.port p).resetMark
    ∧ (∀ f : PortCounters → PortCounters,
        ((s.port p).reception = some .tooLong
            ∨ (∃ bytes, (s.port p).reception = some (.accept bytes) ∧ (bytes.length < 11 ∨ 1024 < bytes.length)))
            ∧ f = (fun c => { c with lengthErrors := satInc c.lengthErrors })
          ∨ (∃ bytes, (s.port p).reception = some (.accept bytes) ∧ 11 ≤ bytes.length ∧ bytes.length ≤ 1024
              ∧ checkCorrect bytes = false)
            ∧ f = (fun c => { c with checkErrors := satInc c.checkErrors }) →
        q.counters = f (s.port p).counters ∧ q.complete = (s.port p).complete ∧ q.badCount = (s.port p).badCount + 1
        ∧ fault = decide ((s.port p).badCount + 1 = 16) ∧ q.state = (if fault then .fault else (s.port p).state)
        ∧ q.fifoHigh = ((s.port p).fifoHigh && decide (1024 < q.fill)))
    ∧ (∀ bytes, (s.port p).reception = some (.accept bytes) → 11 ≤ bytes.length → bytes.length ≤ 1024 → checkCorrect bytes = true →
        q.badCount = 0 ∧ fault = false ∧ q.state = (s.port p).state
        ∧ (bytes[3]? = some 0x01 →
          q.counters = { (s.port p).counters with framesOk := satInc (s.port p).counters.framesOk }
          ∧ q.complete = (s.port p).complete ++ [bytes] ∧ q.fifoHigh = (s.port p).fifoHigh)
        ∧ (bytes[3]? ≠ some 0x01 →
          q.counters = { (s.port p).counters with unknownKind := satInc (s.port p).counters.unknownKind }
          ∧ q.complete = (s.port p).complete ∧ q.fifoHigh = ((s.port p).fifoHigh && decide (1024 < q.fill))))
    ∧ (∀ f : PortCounters → PortCounters,
        ((s.port p).reception = none ∨ (s.port p).reception = some .spent) ∧ f = id
          ∨ (s.port p).reception = some .discard ∧ f = (fun c => { c with disabledDiscards := satInc c.disabledDiscards })
          ∨ (s.port p).reception = some .reset ∧ f = (fun c => { c with resetDiscards := satInc c.resetDiscards }) →
        fault = false ∧ q = { s.port p with reception := none, counters := f (s.port p).counters })

/-- PORT_SET by R6's table, for a port 0–7 and above; a disable removes the untaken complete frames and an ACCEPT frame that is not spent, and counts DISABLED_DISCARDS once for each (R7). Result bytes by assumption 11. -/
def Obligations.PortSetByItsTable : Prop :=
  ∀ (s : State) (c : Command) (rest : List Command) (port flag : Byte), s.begins 0x10 c rest → s.mu.epoch = some c.epoch →
    c.params = [port, flag] →
    (8 ≤ port.toNat → exec .portSet s = .next (s.answered c rest .badRange []))
    ∧ ∀ p : PortId, port.toNat = p.val →
      (flag ≠ 0 →
        ((s.port p).state = .disabled ∨ (s.port p).state = .fault →
          exec .portSet s = .next ((s.setPort p { s.port p with
            state := if (s.port p).signal then .up else .down, badCount := 0 }).answered c rest .ok
              [if (s.port p).signal then 2 else 1]))
        ∧ ((s.port p).state = .down → exec .portSet s = .next (s.answered c rest .already [1]))
        ∧ ((s.port p).state = .up → exec .portSet s = .next (s.answered c rest .already [2])))
      ∧ (flag = 0 →
        ((s.port p).state = .disabled → exec .portSet s = .next (s.answered c rest .already [0]))
        ∧ ((s.port p).state ≠ .disabled → exec .portSet s = .next ((s.setPort p { s.port p with
            state := .disabled
            complete := []
            reception := if (s.port p).accepting then some .spent else (s.port p).reception
            fifoHigh := (s.port p).fifoHigh && decide (1024 < (((s.port p).taken.getD []).length))
            counters := { (s.port p).counters with
              disabledDiscards := satAdd (s.port p).counters.disabledDiscards
                ((s.port p).complete.length + (if (s.port p).accepting then 1 else 0)) } }).answered c rest .ok [0])))

/-! ## Streams and classification (chapters 2 and 3) -/

/-- FRAME_TAKE: the IDLE Classifier takes the offered frame of the first offering port in round-robin order, and the position moves past it (R48). A sound frame begins its first record (R50); a MALFORMED one counts at its port, and its bytes are released (R17, R49). With a frame in progress, or with no port offering, nothing changes: assumption 2. -/
def Obligations.FrameTakeServesTheFirstOffer : Prop :=
  (∀ (s : State) (p : PortId) (frame : List Byte) (rest : List (List Byte)), s.resetN = true → s.classifier.frame = none →
    s.Offers p frame rest →
    (∀ station records, parseFieldFrame frame = some (station, records) →
      exec .frameTake s = .next { s.setPort p { s.port p with
          taken := some frame, complete := rest
          counters := { (s.port p).counters with recordsSeen := satInc (s.port p).counters.recordsSeen } } with
        classifier := { s.classifier with position := p + 1, frame := some ⟨p, station, records, 0, .lookup⟩ } })
    ∧ (parseFieldFrame frame = none → ∃ high : Bool,
      exec .frameTake s = .next { s.setPort p { s.port p with
          taken := none, complete := rest, fifoHigh := high
          counters := { (s.port p).counters with malformed := satInc (s.port p).counters.malformed } } with
        classifier := { s.classifier with position := p + 1 } }
      ∧ high = ((s.port p).fifoHigh && decide (1024 < (s.port p).fill - frame.length))))
  ∧ (∀ s : State, s.resetN = true →
      s.classifier.frame ≠ none ∨ (∀ p, (s.port p).taken ≠ none ∨ (s.port p).complete = []) → exec .frameTake s = .next s)

/-- Fields are sent most significant byte first (00, Conventions), a number of one byte or a count of two as itself, a two-valued state as 00h or 01h (R204), an optional field after its presence byte (R202); that the part sends 01h for a flag that is yes is the model's own: assumption 27. The structural check (R49, R200): a frame is sound exactly when its body, between the station id and the frame check, is a kind byte, a count of 1 to 32, and that many encoded records with values of at most 64 bytes. -/
def Obligations.SoundFramesAreEncodedRecords : Prop :=
  ((∀ x : BitVec 16, (enc16 x).map BitVec.toNat = [x.toNat / 2 ^ 8, x.toNat % 2 ^ 8])
    ∧ (∀ x : BitVec 24, (enc24 x).map BitVec.toNat = [x.toNat / 2 ^ 16, x.toNat / 2 ^ 8 % 2 ^ 8, x.toNat % 2 ^ 8])
    ∧ (∀ x : BitVec 32, (enc32 x).map BitVec.toNat =
        [x.toNat / 2 ^ 24, x.toNat / 2 ^ 16 % 2 ^ 8, x.toNat / 2 ^ 8 % 2 ^ 8, x.toNat % 2 ^ 8])
    ∧ (∀ n : Nat, n < 256 → (enc8 n).map BitVec.toNat = [n])
    ∧ (∀ n : Nat, n < 65536 → (encCount n).map BitVec.toNat = [n / 2 ^ 8, n % 2 ^ 8])
    ∧ (∀ a b c : Byte, (be16 a b).toNat = 256 * a.toNat + b.toNat ∧ (be24 a b c).toNat = 65536 * a.toNat + 256 * b.toNat + c.toNat)
    ∧ encBit false = [0x00] ∧ encBit true = [0x01] ∧ encFlag false = [0x00] ∧ encFlag true = [0x01]
    ∧ ∀ x : Word, encOpt enc32 none = [0x00] ∧ encOpt enc32 (some x) = [0x01] ++ enc32 x)
  ∧ ∀ (bytes : List Byte) (station : Station) (records : List FieldRecord), parseFieldFrame bytes = some (station, records) ↔
    ∃ kind : Byte, bytes.take (bytes.length - 4) =
        enc24 station ++ [kind] ++ enc8 records.length ++ records.flatMap FieldRecord.encode
      ∧ 1 ≤ records.length ∧ records.length ≤ 32 ∧ ∀ r ∈ records, r.value.length ≤ 64

/-- LOOKUP: a key held by a slot of its bucket is a hit, with the snapshot of R33, and the record is judged as a hit; a key not held is a miss, and the record goes to the rule search (R27, R33, R51). The table is unchanged. -/
def Obligations.LookupHitsOrMisses : Prop :=
  ∀ (s : State) (f : FrameInProgress) (r : FieldRecord), s.inStage f r .lookup →
    (∀ (n : StreamNo) (e : StreamEntry), s.streams.HasKey ⟨f.port, f.station, r.tag⟩ n e →
      exec .lookup s = .next (s.judgeHit f
        ⟨n, (s.streams.slot n).generation, e.cls, e.stale, e.urgent, e.decimation.getD 1, e.lastTimestamp, e.decimationCount⟩ r))
    ∧ (s.streams.LacksKey ⟨f.port, f.station, r.tag⟩ →
      exec .lookup s = .next { s with classifier := { s.classifier with frame := some { f with stage := .ruleSearch } } })

/-- The stale check and decimation of a hit record (R56, R57), from its snapshot: dropped STALE or DUPLICATE with neither new value, or passed; then kept when the decimation count c is 0 and thinned otherwise, with the record's timestamp and (c + 1) modulo N as new values. -/
def Obligations.HitRecordsAreJudged : Prop :=
  ∀ (s : State) (f : FrameInProgress) (snap : Snapshot) (r : FieldRecord),
    (∀ last, snap.lastTimestamp = some last →
      (snap.stale = .dropOlder ∧ isOlder r.timestamp last = true
        ∨ snap.stale = .dropNotNewer ∧ isNewer r.timestamp last = false ∧ r.timestamp ≠ last) →
      s.judgeHit f snap r = { s with classifier := { s.classifier with
        staleDrops := satInc s.classifier.staleDrops
        frame := some { f with stage := .update ⟨snap.stream, snap.generation, .dropped, none, none⟩ } } })
    ∧ (snap.lastTimestamp = some r.timestamp → snap.stale = .dropNotNewer →
      s.judgeHit f snap r = { s with classifier := { s.classifier with
        duplicateDrops := satInc s.classifier.duplicateDrops
        frame := some { f with stage := .update ⟨snap.stream, snap.generation, .dropped, none, none⟩ } } })
    ∧ (snap.lastTimestamp = none ∨ snap.stale = .keep
        ∨ (∃ last, snap.lastTimestamp = some last ∧ snap.stale = .dropOlder ∧ isOlder r.timestamp last = false)
        ∨ (∃ last, snap.lastTimestamp = some last ∧ snap.stale = .dropNotNewer ∧ isNewer r.timestamp last = true) →
      (snap.decimationCount = 0 → s.judgeHit f snap r = { s with classifier := { s.classifier with
        frame := some { f with
          stage := .resolve (.bound snap r.timestamp ((snap.decimationCount + 1) % snap.decimation)) } } })
      ∧ (snap.decimationCount ≠ 0 → s.judgeHit f snap r = { s with classifier := { s.classifier with
        thinned := satInc s.classifier.thinned
        frame := some { f with stage := .update ⟨snap.stream, snap.generation, .thinned, some r.timestamp,
          some ((snap.decimationCount + 1) % snap.decimation)⟩ } } }))

/-- Modular comparison (R1): newer is a nonzero distance below 2^31, or 2^15 for a sequence; older is the converse; values that differ are ordered unless they lie exactly half the range apart; the distance from a to b is b - a modulo 2^n. The frame check (R14), bit by bit: a register of all ones takes the bits of each byte, most significant first, shifts, and adds the generator polynomial when the bit that leaves differs from the bit that enters; the final register is complemented, and a check field is correct when it equals the result. A saturating counter stops at its largest value (R2), and adding one to it is an addition of 1, for the 32-bit counters and the 16-bit counts alike. The spread fold (R59): the four 6-bit groups of the station id plus the salt, modulo 2^24, added modulo 64. -/
def Obligations.SharedArithmeticByItsRules : Prop :=
  ((∀ a b : Word, (isNewer b a = true ↔ b ≠ a ∧ (b.toNat + 2 ^ 32 - a.toNat) % 2 ^ 32 < 2147483648)
    ∧ isOlder b a = isNewer a b ∧ (isNewer b a = true → isOlder b a = false)
    ∧ (a ≠ b → isNewer b a = false → isOlder b a = false → (b.toNat + 2 ^ 32 - a.toNat) % 2 ^ 32 = 2147483648)
    ∧ distance a b = (b.toNat + 2 ^ 32 - a.toNat) % 2 ^ 32)
  ∧ (∀ a b : SeqNo, (isNewer b a = true ↔ b ≠ a ∧ (b.toNat + 2 ^ 16 - a.toNat) % 2 ^ 16 < 32768)
    ∧ isOlder b a = isNewer a b ∧ (isNewer b a = true → isOlder b a = false)
    ∧ (a ≠ b → isNewer b a = false → isOlder b a = false → (b.toNat + 2 ^ 16 - a.toNat) % 2 ^ 16 = 32768)
    ∧ distance a b = (b.toNat + 2 ^ 16 - a.toNat) % 2 ^ 16))
  ∧ (∀ bytes : List Byte, frameCheck bytes =
    ~~~ ((bytes.flatMap fun b => (List.range 8).map fun i => b.getLsbD (7 - i)).foldl
      (fun (reg : Word) (bit : Bool) => if reg.msb != bit then (reg <<< 1) ^^^ 0x04C11DB7#32 else reg <<< 1) 0xFFFFFFFF#32))
  ∧ (∀ (body : List Byte) (field : Word), checkCorrect (body ++ enc32 field) = true ↔ field = frameCheck body)
  ∧ (∀ (c : Word) (k : Nat), (satAdd c k).toNat = if c.toNat + k ≤ 4294967295 then c.toNat + k else 4294967295)
  ∧ (∀ (c : BitVec 16) (k : Nat), (satAdd c k).toNat = if c.toNat + k ≤ 65535 then c.toNat + k else 65535)
  ∧ (∀ c : Word, satInc c = satAdd c 1) ∧ (∀ c : BitVec 16, satInc c = satAdd c 1)
  ∧ (∀ station salt : Station, ∃ x : Nat, x = (station.toNat + salt.toNat) % 2 ^ 24
    ∧ spreadFold station salt = (x / 2 ^ 18 + x / 2 ^ 12 % 64 + x / 2 ^ 6 % 64 + x % 64) % 64)

/-- RULE_SEARCH: the first valid matching rule of the active list decides (R52). None drops the record, counts NO_MATCH and raises UNMATCHED at the port; a DROP rule counts RULE_DROPS (R53); a PLACE rule goes to the learn insert with learn and to lane resolution, unbound, without (R54, R55). -/
def Obligations.RuleSearchTakesTheFirstMatch : Prop :=
  ∀ (s : State) (f : FrameInProgress) (r : FieldRecord), s.inStage f r .ruleSearch →
    ((∀ i : RuleIndex, ¬ (s.rules.active[i].valid = true ∧ s.rules.active[i].Matches ⟨f.port, f.station, r.tag⟩)) →
      exec .ruleSearch s = .next ((((s.setPort f.port { s.port f.port with
        counters := { (s.port f.port).counters with noMatch := satInc (s.port f.port).counters.noMatch } }).raise
          (srcUnmatched f.port)).recordEnds f).arbitrate))
    ∧ ∀ i : RuleIndex, s.rules.Selects ⟨f.port, f.station, r.tag⟩ i →
      (s.rules.active[i].action = .drop →
        exec .ruleSearch s = .next ((s.setPort f.port { s.port f.port with
          counters := { (s.port f.port).counters with ruleDrops := satInc (s.port f.port).counters.ruleDrops } }).recordEnds f))
      ∧ (s.rules.active[i].action = .place → exec .ruleSearch s = .next { s with classifier := { s.classifier with
          frame := some { f with
            stage := if s.rules.active[i].learn then .learn i s.rules.active[i].cls s.rules.active[i].stale
              else .resolve (.unbound i s.rules.active[i].cls) } } })

/-- LEARN_INSERT by R35's table: PRESENT judges the record as a hit on the entry there; INSERTED writes the learned entry in the lowest free slot, counts LEARNED and judges the record as a hit on it; FULL counts LEARN_FAILED, raises its event, and the record goes on unbound (R36, R54, R55). -/
def Obligations.LearnInsertByItsTable : Prop :=
  ∀ (s : State) (f : FrameInProgress) (r : FieldRecord) (i : RuleIndex) (cls : ClassId) (stale : StalePolicy),
    s.inStage f r (.learn i cls stale) →
    (∀ (n : StreamNo) (e : StreamEntry), s.streams.HasKey ⟨f.port, f.station, r.tag⟩ n e →
      exec .learnInsert s = .next (s.judgeHit f
        ⟨n, (s.streams.slot n).generation, e.cls, e.stale, e.urgent, e.decimation.getD 1, e.lastTimestamp, e.decimationCount⟩ r))
    ∧ (s.streams.LacksKey ⟨f.port, f.station, r.tag⟩ → ∀ n : StreamNo, s.streams.FirstFree ⟨f.port, f.station, r.tag⟩ n →
      exec .learnInsert s = .next (({ s with streams := { s.streams.setSlot n ⟨(s.streams.slot n).generation + 1,
          some ⟨⟨f.port, f.station, r.tag⟩, cls, none, stale, false, true, none, 0, 0, 0, 0⟩⟩ with
            learned := satInc s.streams.learned } } : State).judgeHit f
        ⟨n, (s.streams.slot n).generation + 1, cls, stale, false, 1, none, 0⟩ r))
    ∧ (s.streams.LacksKey ⟨f.port, f.station, r.tag⟩ → s.streams.BucketFull ⟨f.port, f.station, r.tag⟩ →
      exec .learnInsert s = .next (({ s with
          streams := { s.streams with learnFailed := satInc s.streams.learnFailed }
          classifier := { s.classifier with frame := some { f with stage := .resolve (.unbound i cls) } } } : State).raise
            srcLearnFailed).arbitrate)

/-- LANE_RESOLUTION by R58's table, for a hit and for an unbound record: an UNSET class drops CLASS_UNSET, a FIXED one gives its lane, a SPREAD one the entry at base + (fold modulo size), or drops NO_LANE. The fold is R59's: the four 6-bit groups of station id plus salt, added modulo 64. A dropped hit goes to its update with both new values; a dropped unbound record ends. -/
def Obligations.LaneResolutionByItsTable : Prop :=
  ∀ (s : State) (f : FrameInProgress) (r : FieldRecord) (route : Route), s.inStage f r (.resolve route) →
    ∀ cls : ClassId, (∀ snap ts n, route = .bound snap ts n → cls = snap.cls) → (∀ i k, route = .unbound i k → cls = k) →
    (∀ drop : State → State,
      s.map.classes[cls] = .unset ∧ drop = (fun s => { s with classifier := { s.classifier with
          classUnsetDrops := satInc s.classifier.classUnsetDrops } })
        ∨ (∃ base size, s.map.classes[cls] = .spread base size
          ∧ (∃ i : SpreadIndex, i.val = base + spreadFold f.station s.map.salt % size ∧ s.map.spread[i] = none)
          ∧ drop = (fun s => { s with classifier := { s.classifier with noLaneDrops := satInc s.classifier.noLaneDrops } })) →
      (∀ snap ts n, route = .bound snap ts n → exec .laneResolution s = .next (drop { s with classifier := { s.classifier with
        frame := some { f with stage := .update ⟨snap.stream, snap.generation, .dropped, some ts, some n⟩ } } }))
      ∧ (∀ i k, route = .unbound i k → exec .laneResolution s = .next ((drop s).recordEnds f)))
    ∧ ∀ l, (s.map.classes[cls] = .fixed l
        ∨ ∃ base size, ∃ i : SpreadIndex, s.map.classes[cls] = .spread base size
          ∧ i.val = base + spreadFold f.station s.map.salt % size ∧ s.map.spread[i] = some l) →
      exec .laneResolution s = .next { s with classifier := { s.classifier with frame := some { f with stage := .place route l } } }

/-- The 2048 slots, each read and replaced alone. STREAM_UPDATE: applied while the slot is occupied and holds the request's generation, each new value where it is present and the outcome's counter; discarded whole otherwise; the record ends either way (R34, R61). -/
def Obligations.StreamUpdateNeedsTheGeneration : Prop :=
  (∀ (t : StreamTable) (n : StreamNo) (x : Slot), t.slot n = t.slots[n] ∧ (t.setSlot n x).slot n = x
    ∧ (∀ m, m ≠ n → (t.setSlot n x).slot m = t.slot m) ∧ t.setSlot n x = { t with slots := (t.setSlot n x).slots })
  ∧ ∀ (s : State) (f : FrameInProgress) (r : FieldRecord) (u : UpdateRequest), s.inStage f r (.update u) →
    (∀ e, (s.streams.slot u.stream).entry = some e → (s.streams.slot u.stream).generation = u.generation →
      exec .streamUpdate s = .next (({ s with streams := s.streams.setSlot u.stream ⟨u.generation, some { e with
          lastTimestamp := match u.newTimestamp with | some ts => some ts | none => e.lastTimestamp
          decimationCount := match u.newCount with | some n => n | none => e.decimationCount
          accepted := if u.outcome = .accepted then satInc e.accepted else e.accepted
          dropped := if u.outcome = .dropped then satInc e.dropped else e.dropped
          thinned := if u.outcome = .thinned then satInc e.thinned else e.thinned }⟩ } : State).recordEnds f))
    ∧ ((s.streams.slot u.stream).entry = none ∨ (s.streams.slot u.stream).generation ≠ u.generation →
      exec .streamUpdate s = .next (s.recordEnds f))

/-- The end of a record (R50, R72): with no abandon request and a record left, the next record begins and RECORDS_SEEN adds one; otherwise the frame ends, its bytes are released at the port (R17), and an abandon request is cleared and reported done, so that phase 3 of the DATAPATH_RESET is due. -/
def Obligations.RecordEndsAtItsBoundary : Prop :=
  ∀ (s : State) (f : FrameInProgress),
    (s.classifier.abandon = false → f.index + 1 < f.records.length →
      s.recordEnds f = { s.setPort f.port { s.port f.port with
          counters := { (s.port f.port).counters with recordsSeen := satInc (s.port f.port).counters.recordsSeen } } with
        classifier := { s.classifier with frame := some { f with index := f.index + 1, stage := .lookup } } })
    ∧ (s.classifier.abandon = true ∨ f.records.length ≤ f.index + 1 → ∃ q : Port,
      q = { s.port f.port with taken := none, fifoHigh := (s.port f.port).fifoHigh && decide (1024 < q.fill) }
      ∧ (s.classifier.abandon = false →
        s.recordEnds f = { s.setPort f.port q with classifier := { s.classifier with frame := none } })
      ∧ (s.classifier.abandon = true → ∀ c, s.mu.executing = some ⟨c, .abandoning⟩ →
        s.recordEnds f = { s.setPort f.port q with
          classifier := { s.classifier with frame := none, abandon := false }
          mu := { s.mu with executing := some ⟨c, .phase3Due⟩ } }))

/-- STREAM_WRITE: out-of-range parameters are BAD_RANGE (R38); a present key is replaced in its slot (R39); an absent one is inserted in the lowest free slot of its bucket (R40), or refused BUCKET_FULL. The generation advances, and the response carries outcome, stream number and generation. Result bytes by assumption 11. -/
def Obligations.StreamWriteReplacesOrInserts : Prop :=
  ∀ (s : State) (c : Command) (rest : List Command) (port s2 s1 s0 t1 t0 cls stale urgent : Byte) (decBytes : List Byte)
    (dec : Option Nat), s.begins 0x20 c rest → s.mu.epoch = some c.epoch → OptionalCount decBytes dec →
    c.params = [port, s2, s1, s0, t1, t0, cls] ++ decBytes ++ [stale, urgent] →
    (8 ≤ port.toNat ∨ 8 ≤ cls.toNat ∨ (∃ n, dec = some n ∧ (n = 0 ∨ 255 < n)) ∨ 3 ≤ stale.toNat →
      exec .streamWrite s = .next (s.answered c rest .badRange []))
    ∧ ∀ (p : PortId) (k : ClassId) (policy : StalePolicy), port.toNat = p.val → cls.toNat = k.val →
      (∀ n, dec = some n → 1 ≤ n ∧ n ≤ 255) →
      (stale = 0x00 ∧ policy = .keep ∨ stale = 0x01 ∧ policy = .dropOlder ∨ stale = 0x02 ∧ policy = .dropNotNewer) →
      ∀ key : Key, key = ⟨p, be24 s2 s1 s0, be16 t1 t0⟩ →
      (∀ (n : StreamNo) (e : StreamEntry), s.streams.HasKey key n e →
        exec .streamWrite s = .next (({ s with streams := s.streams.setSlot n ⟨(s.streams.slot n).generation + 1,
          some { e with cls := k, decimation := dec, stale := policy, urgent := urgent != 0, learned := false,
                        lastTimestamp := none, decimationCount := 0 }⟩ } : State).answered c rest .ok
            ([0x01] ++ encCount n ++ enc16 ((s.streams.slot n).generation + 1))))
      ∧ (s.streams.LacksKey key → ∀ n : StreamNo, s.streams.FirstFree key n →
        exec .streamWrite s = .next (({ s with streams := s.streams.setSlot n ⟨(s.streams.slot n).generation + 1,
          some ⟨key, k, dec, policy, urgent != 0, false, none, 0, 0, 0, 0⟩⟩ } : State).answered c rest .ok
            ([0x00] ++ encCount n ++ enc16 ((s.streams.slot n).generation + 1))))
      ∧ (s.streams.LacksKey key → s.streams.BucketFull key →
        exec .streamWrite s = .next (s.answered c rest .bucketFull []))

/-- STREAM_DELETE by the table of R42: the slot of a present key becomes free and its generation advances; an absent key is NOT_FOUND; a port above 7 is BAD_RANGE. STREAM_READ (R43, R44), by key and by number: the fields of the entry as they stand, with the clear flag setting its three counters to 0; the thirteen result fields are those of R44 in order; NOT_FOUND and BAD_RANGE by the table, and BAD_RANGE for a selector that is neither KEY nor NUMBER, with 4 or 8 parameter bytes (R203). Result bytes by assumptions 11 and 27. -/
def Obligations.StreamDeleteAndReadByTheirTables : Prop :=
  (∀ (s : State) (c : Command) (rest : List Command) (port s2 s1 s0 t1 t0 : Byte), s.begins 0x21 c rest →
    s.mu.epoch = some c.epoch → c.params = [port, s2, s1, s0, t1, t0] →
    (8 ≤ port.toNat → exec .streamDelete s = .next (s.answered c rest .badRange []))
    ∧ ∀ (p : PortId) (key : Key), port.toNat = p.val → key = ⟨p, be24 s2 s1 s0, be16 t1 t0⟩ →
      (∀ (n : StreamNo) (e : StreamEntry), s.streams.HasKey key n e →
        exec .streamDelete s = .next (({ s with
          streams := s.streams.setSlot n ⟨(s.streams.slot n).generation + 1, none⟩ } : State).answered c rest .ok
            (encCount n ++ enc16 ((s.streams.slot n).generation + 1))))
      ∧ (s.streams.LacksKey key → exec .streamDelete s = .next (s.answered c rest .notFound [])))
  ∧ (∀ (s : State) (c : Command) (rest : List Command) (clear : Byte), s.begins 0x22 c rest →
    s.mu.epoch = some c.epoch ∨ (clear = 0 ∧ c.epoch = 0) → ∀ result : StreamNo → BitVec 16 → StreamEntry → List Byte,
    (∀ n g e, result n g e = encCount n ++ enc16 g ++ (enc8 e.key.port ++ enc24 e.key.station ++ enc16 e.key.tag) ++ enc8 e.cls
      ++ (match e.decimation with | none => [0x00] | some d => [0x01] ++ encCount d)
      ++ (match e.stale with | .keep => [0x00] | .dropOlder => [0x01] | .dropNotNewer => [0x02])
      ++ encFlag e.urgent ++ encFlag e.learned
      ++ (match e.lastTimestamp with | none => [0x00] | some ts => [0x01] ++ enc32 ts)
      ++ encCount e.decimationCount ++ enc32 e.accepted ++ enc32 e.dropped ++ enc32 e.thinned) →
    (∀ (sel : Byte) (fields : List Byte), sel ≠ 0x00 → sel ≠ 0x01 → fields.length = 2 ∨ fields.length = 6 →
      c.params = [sel] ++ fields ++ [clear] → exec .streamRead s = .next (s.answered c rest .badRange []))
    ∧ (∀ port s2 s1 s0 t1 t0 : Byte, c.params = [0x00, port, s2, s1, s0, t1, t0, clear] →
      (8 ≤ port.toNat → exec .streamRead s = .next (s.answered c rest .badRange []))
      ∧ ∀ (p : PortId) (key : Key), port.toNat = p.val → key = ⟨p, be24 s2 s1 s0, be16 t1 t0⟩ →
        (s.streams.LacksKey key → exec .streamRead s = .next (s.answered c rest .notFound []))
        ∧ ∀ (n : StreamNo) (e : StreamEntry), s.streams.HasKey key n e →
          exec .streamRead s = .next ((if clear = 0 then s else { s with
              streams := s.streams.setSlot n ⟨(s.streams.slot n).generation, some { e with accepted := 0, dropped := 0, thinned := 0 }⟩ }).answered
            c rest .ok (result n (s.streams.slot n).generation e)))
    ∧ (∀ hi lo : Byte, c.params = [0x01, hi, lo, clear] →
      (2048 ≤ 256 * hi.toNat + lo.toNat → exec .streamRead s = .next (s.answered c rest .badRange []))
      ∧ ∀ n : StreamNo, 256 * hi.toNat + lo.toNat = n.val →
        ((s.streams.slot n).entry = none → exec .streamRead s = .next (s.answered c rest .notFound []))
        ∧ ∀ e, (s.streams.slot n).entry = some e →
          exec .streamRead s = .next ((if clear = 0 then s else { s with
              streams := s.streams.setSlot n ⟨(s.streams.slot n).generation, some { e with accepted := 0, dropped := 0, thinned := 0 }⟩ }).answered
            c rest .ok (result n (s.streams.slot n).generation e))))

/-- RULE_STAGE by the table of R64: valid no stages the empty form with the other parameters unchecked; valid yes stages the parameters when they are in range. RULE_APPLY (R65): the active list becomes a copy of the staged list, the version advances modulo 65536, and the response carries it. Result bytes by assumption 11. -/
def Obligations.RuleStageAndApplyByTheirRules : Prop :=
  (∀ (s : State) (c : Command) (rest : List Command) (index valid ports v2 v1 v0 m2 m1 m0 t1 t0 n1 n0 action cls learn stale : Byte),
    s.begins 0x30 c rest → s.mu.epoch = some c.epoch →
    c.params = [index, valid, ports, v2, v1, v0, m2, m1, m0, t1, t0, n1, n0, action, cls, learn, stale] →
    (64 ≤ index.toNat ∨ (valid ≠ 0 ∧ (2 ≤ action.toNat ∨ 8 ≤ cls.toNat ∨ 3 ≤ stale.toNat)) →
      exec .ruleStage s = .next (s.answered c rest .badRange []))
    ∧ ∀ i : RuleIndex, index.toNat = i.val →
      (valid = 0 → exec .ruleStage s = .next (({ s with rules := { s.rules with
        staged := s.rules.staged.set i.val ⟨false, 0, 0, 0, 0, 0, .drop, 0, false, .keep⟩ i.isLt } } : State).answered c rest .ok [index]))
      ∧ (valid ≠ 0 → ∀ (a : Action) (k : ClassId) (policy : StalePolicy), action.toNat = a.code → cls.toNat = k.val →
        stale.toNat = policy.code → exec .ruleStage s = .next (({ s with rules := { s.rules with
          staged := s.rules.staged.set i.val
            ⟨true, ports, be24 v2 v1 v0, be24 m2 m1 m0, be16 t1 t0, be16 n1 n0, a, k, learn != 0, policy⟩ i.isLt } } : State).answered
          c rest .ok [index])))
  ∧ (∀ (s : State) (c : Command) (rest : List Command), s.begins 0x31 c rest → s.mu.epoch = some c.epoch → c.params = [] →
    exec .ruleApply s = .next (({ s with rules := ⟨s.rules.staged, s.rules.staged, s.rules.version + 1⟩ } : State).answered c rest .ok
      (enc16 (s.rules.version + 1))))

/-- RULE_READ and MAP_READ report the rule lists and the class and spread configuration as they stand and change nothing (R66, R70): eight class records as CLASS_WRITE reports them, class, mode, and the optional lane, base and size (R68); 64 spread entries, FFh for UNSET (R202); the salt. Result bytes by assumptions 11, 26 and 27. -/
def Obligations.RuleAndMapReadsReport : Prop :=
  ∀ (s : State) (c : Command) (rest : List Command), c.epoch = 0 ∨ s.mu.epoch = some c.epoch →
    (∀ list index : Byte, s.begins 0x32 c rest → c.params = [list, index] →
      (2 ≤ list.toNat ∨ 64 ≤ index.toNat → exec .ruleRead s = .next (s.answered c rest .badRange []))
      ∧ ∀ (i : RuleIndex) (rule : Rule), index.toNat = i.val →
        (list = 0x00 ∧ rule = s.rules.staged[i] ∨ list = 0x01 ∧ rule = s.rules.active[i]) →
        exec .ruleRead s = .next (s.answered c rest .ok ([list, index] ++ enc16 s.rules.version ++ encFlag rule.valid
          ++ [rule.portSet] ++ enc24 rule.stationValue ++ enc24 rule.stationMask ++ enc16 rule.tagValue ++ enc16 rule.tagMask
          ++ enc8 rule.action.code ++ enc8 rule.cls ++ encFlag rule.learn ++ enc8 rule.stale.code)))
    ∧ (s.begins 0x35 c rest → c.params = [] →
      exec .mapRead s = .next (s.answered c rest .ok
        ((List.finRange 8).flatMap (fun k : ClassId => enc8 k ++ (match s.map.classes[k] with
            | .unset => [0x00, 0x00, 0x00, 0x00]
            | .fixed l => [0x01, 0x01] ++ enc8 l ++ [0x00, 0x00]
            | .spread base size => [0x02, 0x00, 0x01] ++ enc8 base ++ [0x01] ++ encCount size))
          ++ (List.finRange 64).flatMap (fun i : SpreadIndex => match s.map.spread[i] with | none => [0xFF] | some l => enc8 l)
          ++ enc24 s.map.salt)))

/-- CLASS_WRITE by the checks of R68: UNSET, FIXED with a lane 0–15, or SPREAD with base 0–63, size one of seven and base + size at most 64; parameters the mode does not use are ignored, and the answer is the class, the mode and the optional lane, base and size as stored. SPREAD_WRITE (R69): entry first + i takes element i of the list, the other entries stay, a present salt replaces the salt, and four cases are refused. Result bytes by assumption 11. -/
def Obligations.ClassAndSpreadWritesByTheirChecks : Prop :=
  (∀ (s : State) (c : Command) (rest : List Command) (cls mode : Byte) (lane base : Option Byte) (size : Option Nat)
    (sizeBytes : List Byte), s.begins 0x33 c rest → s.mu.epoch = some c.epoch → OptionalCount sizeBytes size →
    c.params = [cls, mode] ++ encOpt (fun b => [b]) lane ++ encOpt (fun b => [b]) base ++ sizeBytes →
    (8 ≤ cls.toNat ∨ 3 ≤ mode.toNat ∨ (mode = 0x01 ∧ ∀ b, lane = some b → 16 ≤ b.toNat)
        ∨ (mode = 0x02 ∧ ∀ b n, base = some b → size = some n →
          64 ≤ b.toNat ∨ n ∉ [1, 2, 4, 8, 16, 32, 64] ∨ 64 < b.toNat + n) →
      exec .classWrite s = .next (s.answered c rest .badRange []))
    ∧ ∀ (k : ClassId) (record : ClassRecord), cls.toNat = k.val →
      (mode = 0x00 ∧ record = .unset ∨ (∃ b l, mode = 0x01 ∧ lane = some b ∧ record = .fixed l ∧ b.toNat = l.val)
        ∨ (∃ b n, mode = 0x02 ∧ base = some b ∧ size = some n ∧ n ∈ [1, 2, 4, 8, 16, 32, 64] ∧ b.toNat + n ≤ 64
          ∧ record = .spread b.toNat n)) →
      exec .classWrite s = .next (({ s with map := { s.map with
        classes := s.map.classes.set k.val record k.isLt } } : State).answered c rest .ok (enc8 k ++ (match record with
          | .unset => [0x00, 0x00, 0x00, 0x00]
          | .fixed l => [0x01, 0x01] ++ enc8 l ++ [0x00, 0x00]
          | .spread base size => [0x02, 0x00, 0x01] ++ enc8 base ++ [0x01] ++ encCount size))))
  ∧ (∀ (s : State) (c : Command) (rest : List Command) (first count : Byte) (entries saltBytes : List Byte) (salt : Option Station),
    s.begins 0x34 c rest → s.mu.epoch = some c.epoch → entries.length = count.toNat →
    (saltBytes = [0x00] ∧ salt = none ∨ ∃ a b d, saltBytes = [0x01, a, b, d] ∧ salt = some (be24 a b d)) →
    c.params = [first, count] ++ entries ++ saltBytes →
    (64 ≤ first.toNat ∨ entries = [] ∨ 16 < entries.length ∨ (∃ b ∈ entries, b ≠ 0xFF ∧ 16 ≤ b.toNat)
        ∨ 64 < first.toNat + entries.length → exec .spreadWrite s = .next (s.answered c rest .badRange []))
    ∧ (1 ≤ entries.length → entries.length ≤ 16 → (∀ b ∈ entries, b = 0xFF ∨ b.toNat < 16) →
      first.toNat + entries.length ≤ 64 → ∃ spread : Vector (Option LaneId) 64,
      exec .spreadWrite s = .next (({ s with map := { s.map with
        spread := spread, salt := salt.getD s.map.salt } } : State).answered c rest .ok
          ([first] ++ encCount entries.length ++ enc24 (salt.getD s.map.salt)))
      ∧ ∀ i : SpreadIndex,
        (∀ b, first.toNat ≤ i.val → entries[i.val - first.toNat]? = some b →
          (b = 0xFF → spread[i] = none) ∧ ∀ l : LaneId, b.toNat = l.val → spread[i] = some l)
        ∧ (i.val < first.toNat ∨ first.toNat + entries.length ≤ i.val → spread[i] = s.map.spread[i])))

/-! ## Cells, placement and closing (chapters 4 and 5) -/

/-- An allocation is granted whole or refused whole (R76); one that leaves the free count below the hold threshold asserts pool hold, counts POOL_HOLD_EVENTS and raises POOL_LOW (R79). A freeing raises the free count, and one that leaves it above the release threshold releases pool hold (R77, R80); 0 cells change nothing. POOL_SET (R82): both thresholds are at most 4095 and release is above hold, or the command is refused; then pool hold is judged at once against the free count. Result bytes by assumption 11. -/
def Obligations.CellPoolByItsRules : Prop :=
  (∀ (s : State) (n : Nat),
    (n = 0 → s.allocate n = some s ∧ s.freeCells n = s)
    ∧ (0 < n → s.pool.free < n → s.allocate n = none)
    ∧ (0 < n → n ≤ s.pool.free → s.pool.held = true ∨ s.pool.holdThreshold ≤ s.pool.free - n →
      s.allocate n = some { s with pool := { s.pool with free := s.pool.free - n } })
    ∧ (0 < n → n ≤ s.pool.free → s.pool.held = false → s.pool.free - n < s.pool.holdThreshold →
      s.allocate n = some (({ s with pool := { s.pool with
        free := s.pool.free - n, held := true, holdEvents := satInc s.pool.holdEvents } } : State).raise srcPoolLow))
    ∧ (0 < n → s.freeCells n = { s with pool := { s.pool with
        free := s.pool.free + n
        held := s.pool.held && decide (s.pool.free + n ≤ s.pool.releaseThreshold) } }))
  ∧ (∀ (s : State) (c : Command) (rest : List Command) (h1 h0 r1 r0 : Byte) (hold release : Nat), s.begins 0x40 c rest →
    s.mu.epoch = some c.epoch → c.params = [h1, h0, r1, r0] → hold = 256 * h1.toNat + h0.toNat → release = 256 * r1.toNat + r0.toNat →
    (4095 < hold ∨ 4095 < release ∨ release ≤ hold → exec .poolSet s = .next (s.answered c rest .badRange []))
    ∧ (hold ≤ 4095 → release ≤ 4095 → hold < release →
      (s.pool.held = false → s.pool.free < hold → exec .poolSet s = .next (((({ s with pool := { s.pool with
          holdThreshold := hold, releaseThreshold := release, held := true
          holdEvents := satInc s.pool.holdEvents } } : State).raise srcPoolLow).answered c rest .ok
            (encCount hold ++ encCount release ++ encCount s.pool.free ++ [0x01])).arbitrate))
      ∧ (s.pool.held = false → hold ≤ s.pool.free → exec .poolSet s = .next ((({ s with pool := { s.pool with
          holdThreshold := hold, releaseThreshold := release } } : State).answered c rest .ok
            (encCount hold ++ encCount release ++ encCount s.pool.free ++ [0x00])).arbitrate))
      ∧ (s.pool.held = true → exec .poolSet s = .next ((({ s with pool := { s.pool with
          holdThreshold := hold, releaseThreshold := release, held := decide (s.pool.free ≤ release) } } : State).answered c rest .ok
            (encCount hold ++ encCount release ++ encCount s.pool.free ++ encBit (decide (s.pool.free ≤ release)))).arbitrate))))

/-- The sixteen lanes, each read and replaced alone. A close decision on an open bundle with records (R104): the timers stop, close time and reason are set, the reason's one counter adds one (R111), and the bundle stands offered; on any other open bundle there is none. The handoff, taken at the LDU: with fewer than 32 bundles ready the bundle takes sequence C and joins the queue, C advances and an empty bundle opens; with 32 it becomes the pending bundle (R105). HANDOFF takes the offered bundle so, and so does every event that needs the next bundle first. That the bundle stands offered until then is the model's own (assumption 7), and so is that a HANDOFF with none offered changes nothing (assumption 2). -/
def Obligations.ClosedBundlesAreHandedOff : Prop :=
  (∀ (s : State) (l : LaneId) (x : Lane), s.lane l = s.lanes[l] ∧ (s.setLane l x).lane l = x
    ∧ (∀ k, k ≠ l → (s.setLane l x).lane k = s.lane k) ∧ s.setLane l x = { s with lanes := (s.setLane l x).lanes })
  ∧ (∀ ln : Lane, ln.bundles = ln.asm.openB.toList ++ ln.asm.pendingB.toList ++ ln.ldu.ready ++ ln.ldu.retention
    ∧ ln.openRecords = (match ln.asm.openB with | some b => b.records | none => [])
    ∧ ∀ b, ln.offered = some b ↔ ln.asm.openB = some b ∧ b.closeReason ≠ none)
  ∧ (∀ (now : Word) (reason : CloseReason) (ln : Lane),
    (∀ b, ln.asm.openB = some b → b.records ≠ [] → b.closeReason = none → ln.close now reason =
      { ln with asm := { ln.asm with
          openB := some { b with closeTime := some now, closeReason := some reason }
          idle := .stopped, age := .stopped, counters := ln.asm.counters.countClose reason } })
    ∧ ((∀ b, ln.asm.openB = some b → b.records = [] ∨ b.closeReason ≠ none) → ln.close now reason = ln))
  ∧ (∀ k : AssemblyCounters,
    k.countClose .count = { k with closeCount := satInc k.closeCount } ∧ k.countClose .fill = { k with closeFill := satInc k.closeFill }
    ∧ k.countClose .idle = { k with closeIdle := satInc k.closeIdle } ∧ k.countClose .age = { k with closeAge := satInc k.closeAge }
    ∧ k.countClose .urgent = { k with closeUrgent := satInc k.closeUrgent }
    ∧ k.countClose .flush = { k with closeFlush := satInc k.closeFlush }
    ∧ k.countClose .drain = { k with closeDrain := satInc k.closeDrain })
  ∧ (∀ (l : LaneId) (ln : Lane) (b : Bundle),
    (ln.ldu.ready.length < 32 → ln.handOff l b =
      ⟨{ ln.asm with openB := some ⟨l, .open, [], 0, 0, none, none, none, none, 0⟩, pendingB := none },
       { ln.ldu with c := ln.ldu.c + 1, ready := ln.ldu.ready ++ [{ b with state := .ready, seq := some ln.ldu.c }] }⟩)
    ∧ (32 ≤ ln.ldu.ready.length → ln.handOff l b =
      ⟨{ ln.asm with openB := none, pendingB := some { b with state := .closePending } }, ln.ldu⟩)
    ∧ (ln.asm.openB = some b → b.closeReason ≠ none → ln.settle l = ln.handOff l b)
    ∧ ((∀ x, ln.asm.openB = some x → x.closeReason = none) → ln.settle l = ln))
  ∧ ∀ (s : State) (l : LaneId), s.resetN = true →
    (∀ b reason, (s.lane l).asm.openB = some b → b.closeReason = some reason →
      ((s.lane l).ldu.ready.length < 32 → exec (.handoff l) s = .next ((s.setLane l
        ⟨{ (s.lane l).asm with openB := some ⟨l, .open, [], 0, 0, none, none, none, none, 0⟩, pendingB := none },
         { (s.lane l).ldu with
            c := (s.lane l).ldu.c + 1
            ready := (s.lane l).ldu.ready ++ [{ b with state := .ready, seq := some (s.lane l).ldu.c }] }⟩).arbitrate))
      ∧ (32 ≤ (s.lane l).ldu.ready.length → exec (.handoff l) s = .next ((s.setLane l
        ⟨{ (s.lane l).asm with openB := none, pendingB := some { b with state := .closePending } }, (s.lane l).ldu⟩).arbitrate)))
    ∧ ((∀ b, (s.lane l).asm.openB = some b → b.closeReason = none) → exec (.handoff l) s = .next s)

/-- The encoded size of a record (R91): 8 plus the value length for a bound one, 16 plus it for an unbound one, the length of its encoded bytes (10.3). The last steps of a placement into an open bundle (R96, R97, R98): the cells are the ceiling (R75) of (16 + payload bytes) / 64 after the append less those held; a refused allocation counts DROP_POOL_EMPTY and raises POOL_EMPTY_DROP; a granted one appends the record, sets the open time and the age timer at the first record, restarts the idle timer, counts, and closes with COUNT at the record limit or else with URGENT for an urgent record. The bundle so closed stands offered: assumption 7. -/
def Obligations.PlacementAppendsTheRecord : Prop :=
  ((∀ stream ts value, (PlacedRecord.bound stream ts value).size = 8 + value.length)
    ∧ (∀ key rule ts value, (PlacedRecord.unbound key rule ts value).size = 16 + value.length)
    ∧ (∀ r : PlacedRecord, r.encode.length = r.size) ∧ ∀ payload : Nat, cellsFor payload = (16 + payload + 63) / 64)
  ∧ ∀ (s : State) (l : LaneId) (b : Bundle) (q : PlacementRequest) (need : Nat),
    need = (16 + b.payload + q.record.size + 63) / 64 - b.cells →
    (s.allocate need = none → s.placeInto l b q =
      ((s.raise srcPoolEmptyDrop).setLane l { s.lane l with asm := { (s.lane l).asm with
        counters := { (s.lane l).asm.counters with dropPoolEmpty := satInc (s.lane l).asm.counters.dropPoolEmpty } } }, .poolEmpty))
    ∧ ∀ (t : State) (ln : Lane), s.allocate need = some t → ln = ⟨{ (s.lane l).asm with
        openB := some { b with
          records := b.records ++ [q.record], payload := b.payload + q.record.size, cells := b.cells + need
          openTime := if b.records = [] then some s.deviceTime else b.openTime }
        idle := if (s.lane l).asm.config.idleLimit = 0 then (s.lane l).asm.idle
          else .running (s.deviceTime + BitVec.ofNat 32 (10 * (s.lane l).asm.config.idleLimit)) false
        age := if b.records = [] ∧ (s.lane l).asm.config.ageLimit ≠ 0
          then .running (s.deviceTime + BitVec.ofNat 32 (100 * (s.lane l).asm.config.ageLimit)) false else (s.lane l).asm.age
        counters := { (s.lane l).asm.counters with
          recordsPlaced := satInc (s.lane l).asm.counters.recordsPlaced
          bytesPlaced := satAdd (s.lane l).asm.counters.bytesPlaced q.record.size } }, (s.lane l).ldu⟩ →
      ((s.lane l).asm.config.recordLimit ≤ b.records.length + 1 →
        s.placeInto l b q = (t.setLane l (ln.close s.deviceTime .count), .placed))
      ∧ (b.records.length + 1 < (s.lane l).asm.config.recordLimit →
        s.placeInto l b q = (t.setLane l (if q.urgent then ln.close s.deviceTime .urgent else ln), .placed))

/-- PLACEMENT (R60, R93, R94, R95): a DISABLED or DRAINING lane refuses; a pending bundle refuses LANE_FULL; a record that fits, or an empty open bundle, goes into the open bundle; otherwise the open bundle closes with FILL and is handed off, and the record goes into the new bundle, or is refused LANE_FULL when the handoff is deferred. A hit then goes to its update, ACCEPTED or DROPPED with both new values, and an unbound record ends. A handoff still offered is taken first: assumption 7. -/
def Obligations.PlacementAnswersByItsSteps : Prop :=
  (∀ (s : State) (f : FrameInProgress) (r : FieldRecord) (l : LaneId),
    (∀ snap ts n, s.inStage f r (.place (.bound snap ts n) l) → ∀ x,
      x = s.place l ⟨.bound snap.stream r.timestamp r.value, snap.urgent⟩ →
      exec .placement s = .next ({ x.1 with classifier := { s.classifier with frame := some { f with
        stage := .update ⟨snap.stream, snap.generation, if x.2 = .placed then .accepted else .dropped, some ts, some n⟩ } } } : State).arbitrate)
    ∧ (∀ i k, s.inStage f r (.place (.unbound i k) l) → exec .placement s =
      .next (((s.place l ⟨.unbound ⟨f.port, f.station, r.tag⟩ i r.timestamp r.value, false⟩).1.recordEnds f).arbitrate)))
  ∧ ∀ (s0 : State) (l : LaneId) (q : PlacementRequest) (s : State) (ln : Lane), ln = (s0.lane l).settle l → s = s0.setLane l ln →
    (ln.ldu.state = .disabled → s0.place l q = (s.setLane l { ln with asm := { ln.asm with
      counters := { ln.asm.counters with dropDisabled := satInc ln.asm.counters.dropDisabled } } }, .laneDisabled))
    ∧ (ln.ldu.state = .draining → s0.place l q = (s.setLane l { ln with asm := { ln.asm with
      counters := { ln.asm.counters with dropDraining := satInc ln.asm.counters.dropDraining } } }, .laneDraining))
    ∧ (ln.ldu.state = .open ∨ ln.ldu.state = .stalled → ∀ full : Lane → State,
      (∀ y : Lane, full y = (s.setLane l { y with asm := { y.asm with
        counters := { y.asm.counters with dropLaneFull := satInc y.asm.counters.dropLaneFull } } }).raise (srcLaneFullDrop l)) →
      (ln.asm.pendingB ≠ none → s0.place l q = (full ln, .laneFull))
      ∧ (ln.asm.pendingB = none → ∀ b, ln.asm.openB = some b →
        (b.records = [] ∨ 16 + b.payload + q.record.size ≤ ln.asm.config.maxBytes → s0.place l q = s.placeInto l b q)
        ∧ (b.records ≠ [] → b.closeReason = none → ln.asm.config.maxBytes < 16 + b.payload + q.record.size →
          ∀ closed : Bundle, closed = { b with closeTime := some s0.deviceTime, closeReason := some .fill } →
          (ln.ldu.ready.length < 32 →
            s0.place l q = (s.setLane l ((ln.close s0.deviceTime .fill).handOff l closed)).placeInto l ⟨l, .open, [], 0, 0, none, none, none, none, 0⟩ q)
          ∧ (32 ≤ ln.ldu.ready.length →
            s0.place l q = (full ((ln.close s0.deviceTime .fill).handOff l closed), .laneFull)))))

/-- IDLE_TIMER_EXPIRY and AGE_TIMER_EXPIRY: the expiry of a running timer, reached when device time has equalled it, closes the open bundle with IDLE or AGE (R101, R102); a stopped or restarted run has none left (R103). The closed bundle stands offered until its handoff is taken (assumption 7). The mark of a reached expiry is the model's own (assumption 13), and so is that an expiry not reached changes nothing (assumption 2). -/
def Obligations.TimerExpiriesCloseTheBundle : Prop :=
  ∀ (s : State) (l : LaneId), s.resetN = true →
    (∀ e reached, (s.lane l).asm.idle = .running e reached → reached = true ∨ e = s.deviceTime →
      exec (.idleTimerExpiry l) s = .next (s.setLane l ((s.lane l).close s.deviceTime .idle)))
    ∧ (∀ e reached, (s.lane l).asm.age = .running e reached → reached = true ∨ e = s.deviceTime →
      exec (.ageTimerExpiry l) s = .next (s.setLane l ((s.lane l).close s.deviceTime .age)))
    ∧ ((s.lane l).asm.idle = .stopped ∨ (∃ e, (s.lane l).asm.idle = .running e false ∧ e ≠ s.deviceTime) →
      exec (.idleTimerExpiry l) s = .next s)
    ∧ ((s.lane l).asm.age = .stopped ∨ (∃ e, (s.lane l).asm.age = .running e false ∧ e ≠ s.deviceTime) →
      exec (.ageTimerExpiry l) s = .next s)

/-! ## Lanes (chapter 6) -/

/-- LANE_UPDATE (R118, R119): the oldest update in flight is discarded whole during a DATAPATH_RESET, ignored whole by a DISABLED lane, refused whole when its ack lies beyond S, and otherwise applied in the order ack, grant, resend-from, with one UPDATE_REFUSED and one TRUNK_PROTOCOL event if its grant or its resend-from is refused, and then the drain check: a DRAINING lane that holds no record and no bundle goes to DISABLED with its counters zero and queues LANE_DRAINED; any other lane stays (R135). An update waits for a command handed on before it to arrive (R155). The list in flight is the model's own (assumption 8), its order over all lanes assumption 9, the refusal counted before the drain notice assumption 23, and that nothing happens with no update to take assumption 2. -/
def Obligations.LaneUpdateIsTakenByParts : Prop :=
  (∀ s : State, s.resetN = true → s.trunk.handed = [] ∨ (∃ c rest, s.trunk.handed = .arrival c :: rest) →
    exec .laneUpdate s = .next s)
  ∧ (∀ (s : State) (l : LaneId) (ln : Lane), ln = s.lane l →
    (ln.ldu.state = .draining → (∀ b, ln.asm.openB = some b → b.records = [] ∧ b.cells = 0 ∧ b.seq = none) →
      ln.asm.pendingB = none → ln.ldu.ready = [] → ln.ldu.retention = [] →
      s.drainCheck l = (s.setLane l ⟨{ ln.asm with openB := none, pendingB := none, idle := .stopped, age := .stopped },
        { ln.ldu with
          state := .disabled, a := 0, r := 0, s := 0, c := 0, g := 0, ready := [], retention := [], timer := .stopped
          retry := 0, drainRequested := false }⟩).notify .laneDrained l)
    ∧ (ln.ldu.state ≠ .draining ∨ (∃ b, ln.asm.openB = some b ∧ b.records ≠ []) ∨ ln.asm.pendingB ≠ none ∨ ln.ldu.ready ≠ []
        ∨ ln.ldu.retention ≠ [] → s.drainCheck l = s))
  ∧ ∀ (s : State) (u : LaneUpdate) (rest : List Handover) (s0 : State) (d : Ldu), s.resetN = true → s.trunk.handed = .update u :: rest →
    s0 = { s with trunk := { s.trunk with handed := rest } } → d = (s.lane u.lane).ldu →
    (s.resetInExecution = true → exec .laneUpdate s = .next (s0.countTrunk fun c =>
      { c with updatesDiscardedReset := satInc c.updatesDiscardedReset }))
    ∧ (s.resetInExecution = false →
      (d.state = .disabled → exec .laneUpdate s = .next (s0.countTrunk fun c => { c with updateIdleLane := satInc c.updateIdleLane }))
      ∧ (d.state ≠ .disabled → distance d.a d.s < distance d.a u.ack → exec .laneUpdate s = .next
        (((s0.countTrunk fun c => { c with updateRefused := satInc c.updateRefused }).raise srcTrunkProtocol).arbitrate))
      ∧ (d.state ≠ .disabled → distance d.a u.ack ≤ distance d.a d.s → ∀ s1 s2 s3, s1 = s0.applyAck u.lane u.ack →
        s2 = s1.applyGrant u.lane u.grant → s3 = s2.applyResend u.lane u.resendFrom →
        (isOlder u.grant (s1.lane u.lane).ldu.s = true
            ∨ (∃ x, u.resendFrom = some x ∧ distance (s2.lane u.lane).ldu.a (s2.lane u.lane).ldu.s ≤ distance (s2.lane u.lane).ldu.a x) →
          exec .laneUpdate s = .next
            ((((s3.countTrunk fun c => { c with updateRefused := satInc c.updateRefused }).raise srcTrunkProtocol).drainCheck u.lane).arbitrate))
        ∧ (isOlder u.grant (s1.lane u.lane).ldu.s = false →
          (∀ x, u.resendFrom = some x → distance (s2.lane u.lane).ldu.a x < distance (s2.lane u.lane).ldu.a (s2.lane u.lane).ldu.s) →
          exec .laneUpdate s = .next ((s3.drainCheck u.lane).arbitrate))))

/-- A valid ack (R120, R121): one equal to A changes nothing; one ahead releases the retained bundles below it, each freed at once unless it is on the wire, where it becomes RELEASING; A takes the ack, R moves up to it if older, the retry count is 0, a stall ends, and the retransmit timer stops with nothing retained and restarts otherwise where R130 lets it run. A grant (R122): one older than S leaves G, one at most W ahead of A is taken, one beyond is clamped to A + W and counted. A resend-from (R123): a retained one sets R, zeroes the retry count, ends a stall and restarts the timer where R130 lets it run; any other changes nothing. A stall that ends with drain-requested set enters DRAINING: a non-empty open bundle closes with DRAIN and is handed off (R108, R134). The on-wire flag stays set while the bundle is RELEASING (R88). That the bundles below an ack are the first ack - A of the list is read from R115 (assumption 19), and an entry to DRAINING takes a handoff still offered first (assumption 7). -/
def Obligations.PartsOfALaneUpdate : Prop :=
  (∀ (l : LaneId) (now : Word) (ln d : Lane),
    d = { ln.settle l with ldu := { (ln.settle l).ldu with state := .draining } } →
    (∀ b, d.asm.openB = some b → b.records ≠ [] → b.closeReason = none → ∀ closed : Bundle,
      closed = { b with closeTime := some now, closeReason := some .drain } →
      ln.enterDraining l now = (({ d with asm := { d.asm with
        openB := some closed, idle := .stopped, age := .stopped
        counters := { d.asm.counters with closeDrain := satInc d.asm.counters.closeDrain } } } : Lane)).handOff l closed)
    ∧ ((∀ b, d.asm.openB = some b → b.records = [] ∧ b.closeReason = none) → ln.enterDraining l now = d))
  ∧ (∀ (s : State) (l : LaneId) (b : Bundle) (mode : TxMode) (q : SeqNo) (bytes : List Byte), b.seq = some q → b.state = .sent →
    s.trunk.outbound = some (.bundle l mode (.retained q) bytes) →
    s.onWire l b = true ∧ (State.discard l s b).onWire l { b with state := .releasing } = true
    ∧ ∀ t : State, (∀ mode carried bytes, t.trunk.outbound ≠ some (.bundle l mode carried bytes)) → t.onWire l b = false)
  ∧ ((∀ (s : State) (l : LaneId) (b : Bundle) (mode : TxMode) (q : SeqNo) (bytes : List Byte),
    (s.trunk.outbound = some (.bundle l mode (.retained q) bytes) → b.seq = some q → State.discard l s b =
      { s with trunk := { s.trunk with outbound := some (.bundle l mode (.releasing { b with state := .releasing }) bytes) } })
    ∧ ((∀ mode q bytes, s.trunk.outbound = some (.bundle l mode (.retained q) bytes) → b.seq ≠ some q) →
      State.discard l s b = s.freeCells b.cells))
  ∧ ∀ (s : State) (l : LaneId) (ack : SeqNo) (ln : Lane), ln = s.lane l →
    (ack = ln.ldu.a → s.applyAck l ack = s)
    ∧ (ack ≠ ln.ldu.a → ∀ moved left : Lane,
      moved = { ln with ldu := { ln.ldu with
        a := ack
        r := if isOlder ln.ldu.r ack then ack else ln.ldu.r
        retention := ln.ldu.retention.drop (distance ln.ldu.a ack)
        retry := 0 } } →
      left = (if ln.ldu.state ≠ .stalled then moved
        else if ln.ldu.drainRequested then
          ({ moved with ldu := { moved.ldu with drainRequested := false } } : Lane).enterDraining l s.deviceTime
        else { moved with ldu := { moved.ldu with state := .open } }) →
      s.applyAck l ack = ((ln.ldu.retention.take (distance ln.ldu.a ack)).foldl (State.discard l) s).setLane l { left with
        ldu := { left.ldu with
          timer := if left.ldu.retention = [] then .stopped
            else if s.trunk.linkUp = true ∧ (left.ldu.state = .open ∨ left.ldu.state = .draining) then
              .running (s.deviceTime + BitVec.ofNat 32 (1000 * left.ldu.config.timeoutMs)) false
            else left.ldu.timer } }))
  ∧ (∀ (s : State) (l : LaneId) (ln : Lane), ln = s.lane l →
    (∀ g : SeqNo,
      (isOlder g ln.ldu.s = true → s.applyGrant l g = s)
      ∧ (isOlder g ln.ldu.s = false → distance ln.ldu.a g ≤ ln.ldu.config.window →
        s.applyGrant l g = s.setLane l { ln with ldu := { ln.ldu with g := g } })
      ∧ (isOlder g ln.ldu.s = false → ln.ldu.config.window < distance ln.ldu.a g →
        s.applyGrant l g = (s.setLane l { ln with ldu := { ln.ldu with g := ln.ldu.a + BitVec.ofNat 16 ln.ldu.config.window } }).countTrunk
          fun c => { c with grantClamped := satInc c.grantClamped }))
    ∧ s.applyResend l none = s
    ∧ ∀ x : SeqNo,
      (distance ln.ldu.a ln.ldu.s ≤ distance ln.ldu.a x → s.applyResend l (some x) = s)
      ∧ (distance ln.ldu.a x < distance ln.ldu.a ln.ldu.s → ∀ moved left : Lane,
        moved = { ln with ldu := { ln.ldu with r := x, retry := 0 } } →
        left = (if ln.ldu.state ≠ .stalled then moved
          else if ln.ldu.drainRequested then
            ({ moved with ldu := { moved.ldu with drainRequested := false } } : Lane).enterDraining l s.deviceTime
          else { moved with ldu := { moved.ldu with state := .open } }) →
        s.applyResend l (some x) = s.setLane l { left with ldu := { left.ldu with
          timer := if s.trunk.linkUp = true ∧ (left.ldu.state = .open ∨ left.ldu.state = .draining) ∧ left.ldu.retention ≠ [] then
              .running (s.deviceTime + BitVec.ofNat 32 (1000 * left.ldu.config.timeoutMs)) false
            else left.ldu.timer } }))

/-- SEND_START (R124 to R127): a lane that is not eligible answers NONE and the arbiter chooses again, as it does during a DATAPATH_RESET (R163) and with the wire busy; R behind S resends bundle R with its resend count raised, up to 15; R at S first sends the head of the ready queue as bundle S, which starts the retransmit timer of an empty retention list and makes room for a pending handoff. The request in flight is the model's own (assumption 6), that the answer NONE lets the arbiter choose again is assumption 24, and that bundle R stands at place R - A of the retention list is read from R115 (assumption 19). -/
def Obligations.SendStartSendsOneBundle : Prop :=
  ∀ (s : State) (l : LaneId) (s0 : State) (ln : Lane) (able : Prop), s.resetN = true → s.trunk.request = .sendStart l → ln = s.lane l →
    s0 = { s with trunk := { s.trunk with request := .none } } →
    able = (s.trunk.outbound = none ∧ s.resetInExecution = false ∧ (ln.ldu.state = .open ∨ ln.ldu.state = .draining)
      ∧ s.trunk.linkUp = true) →
    (¬ able ∨ (isNewer ln.ldu.s ln.ldu.r = false ∧ (isNewer ln.ldu.c ln.ldu.s = false ∨ isNewer ln.ldu.g ln.ldu.s = false)) →
      exec .sendStart s = .next s0.arbitrate)
    ∧ (able → isNewer ln.ldu.s ln.ldu.r = true → ∀ b, ln.ldu.retention[distance ln.ldu.a ln.ldu.r]? = some b →
      ∀ b' : Bundle, b' = { b with resendCount := min 15 (b.resendCount + 1) } →
      exec .sendStart s = .next { s0.setLane l { ln with ldu := { ln.ldu with
          r := ln.ldu.r + 1
          retention := ln.ldu.retention.set (distance ln.ldu.a ln.ldu.r) b'
          counters := { ln.ldu.counters with bundlesResent := satInc ln.ldu.counters.bundlesResent } } } with
        trunk := { s0.trunk with
          outbound := some (.bundle l .sending (.retained ln.ldu.r) (b'.frame s.trunk.unit)), lastServed := l } })
    ∧ (able → ln.ldu.r = ln.ldu.s → isNewer ln.ldu.c ln.ldu.s = true → isNewer ln.ldu.g ln.ldu.s = true →
      ∀ b rest, ln.ldu.ready = b :: rest → rest.length < 32 → ∀ sent : Lane,
      sent = { ln with ldu := { ln.ldu with
          ready := rest
          retention := ln.ldu.retention ++ [{ b with state := .sent }]
          s := ln.ldu.s + 1
          r := ln.ldu.r + 1
          timer := if ln.ldu.retention = [] then
            .running (s.deviceTime + BitVec.ofNat 32 (1000 * ln.ldu.config.timeoutMs)) false else ln.ldu.timer
          counters := { ln.ldu.counters with bundlesSent := satInc ln.ldu.counters.bundlesSent } } } →
      exec .sendStart s = .next { s0.setLane l (match ln.asm.pendingB with | none => sent | some p => sent.handOff l p) with
        trunk := { s0.trunk with
          outbound := some (.bundle l .sending (.retained ln.ldu.s) (b.frame s.trunk.unit)), lastServed := l } })

/-- The retransmit timer may run with the link UP, the lane OPEN or DRAINING and a bundle retained (R130). RETRANSMIT_TIMER_EXPIRY (R131): the retry count and RETRANSMIT_EXPIRIES add one; within the limit R returns to A and the timer restarts; above it the lane stalls, its timer stops, STALLS adds one, a lane that was DRAINING has drain-requested set, and LANE_STALLED is queued. The mark of a reached expiry is the model's own (assumption 13), and so is that an expiry not reached changes nothing (assumption 2). -/
def Obligations.RetransmitExpiryRewindsOrStalls : Prop :=
  (∀ (up : Bool) (ln : Lane), ln.mayRun up = true ↔
    up = true ∧ (ln.ldu.state = .open ∨ ln.ldu.state = .draining) ∧ ln.ldu.retention ≠ [])
  ∧ ∀ (s : State) (l : LaneId) (ln : Lane), s.resetN = true → ln = s.lane l →
    (∀ e reached, ln.ldu.timer = .running e reached → reached = true ∨ e = s.deviceTime →
      (ln.ldu.retry + 1 ≤ ln.ldu.config.retryLimit → ln.mayRun s.trunk.linkUp = true →
        exec (.retransmitTimerExpiry l) s = .next ((s.setLane l { ln with ldu := { ln.ldu with
          retry := ln.ldu.retry + 1
          r := ln.ldu.a
          timer := .running (s.deviceTime + BitVec.ofNat 32 (1000 * ln.ldu.config.timeoutMs)) false
          counters := { ln.ldu.counters with retransmitExpiries := satInc ln.ldu.counters.retransmitExpiries } } }).arbitrate))
      ∧ (ln.ldu.config.retryLimit < ln.ldu.retry + 1 →
        exec (.retransmitTimerExpiry l) s = .next (((s.setLane l { ln with ldu := { ln.ldu with
          retry := ln.ldu.retry + 1
          state := .stalled
          timer := .stopped
          drainRequested := ln.ldu.drainRequested || (ln.ldu.state == .draining)
          counters := { ln.ldu.counters with
            retransmitExpiries := satInc ln.ldu.counters.retransmitExpiries
            stalls := satInc ln.ldu.counters.stalls } } }).notify .laneStalled l).arbitrate)))
    ∧ (ln.ldu.timer = .stopped ∨ (∃ e, ln.ldu.timer = .running e false ∧ e ≠ s.deviceTime) →
      exec (.retransmitTimerExpiry l) s = .next s)

/-- LANE_FLUSH by R106's table, after a handoff still offered is taken (assumption 7): a bundle with records closes with FLUSH and is handed off, accepted with its sequence or deferred with none. On a lane in service the event ends with the choice of the arbiter that R158 asks for when a lane becomes eligible; that LANE_FLUSH is one of its events is the model's reading (assumption 24). Result bytes by assumption 11. -/
def Obligations.LaneFlushByItsTable : Prop :=
  ∀ (s : State) (c : Command) (rest : List Command) (lane : Byte), s.begins 0x50 c rest → s.mu.epoch = some c.epoch → c.params = [lane] →
    (16 ≤ lane.toNat → exec .laneFlush s = .next (s.answered c rest .badRange []))
    ∧ ∀ (l : LaneId) (ln : Lane), lane.toNat = l.val → ln = (s.lane l).settle l →
      ((s.lane l).ldu.state = .disabled → exec .laneFlush s = .next (s.answered c rest .laneDisabled []))
      ∧ ((s.lane l).ldu.state ≠ .disabled →
        (ln.asm.pendingB ≠ none → exec .laneFlush s = .next (((s.setLane l ln).answered c rest .already []).arbitrate))
        ∧ (ln.asm.pendingB = none → (∀ b, ln.asm.openB = some b → b.records = []) →
          exec .laneFlush s = .next (((s.setLane l ln).answered c rest .empty []).arbitrate))
        ∧ (ln.asm.pendingB = none → ∀ b, ln.asm.openB = some b → b.records ≠ [] → b.closeReason = none → ∀ closed : Bundle,
          closed = { b with closeTime := some s.deviceTime, closeReason := some .flush } →
          exec .laneFlush s = .next (((s.setLane l ((ln.close s.deviceTime .flush).handOff l closed)).answered c rest .ok
            (if ln.ldu.ready.length < 32 then [0x00, 0x01] ++ enc16 ln.ldu.c else [0x01, 0x00])).arbitrate)))

/-- LANE_CONFIG by R136's cases in order: a bad lane, a lane in service, a value out of its range, or the present values in place of the lane's own, with all seven answered. Result bytes by assumption 11. -/
def Obligations.LaneConfigSetsADisabledLane : Prop :=
  ∀ (s : State) (c : Command) (rest : List Command) (lane : Byte) (w r t m n i g : Option Nat) (wb rb tb mb nb ib gb : List Byte),
    s.begins 0x51 c rest → s.mu.epoch = some c.epoch →
    OptionalCount wb w → OptionalCount rb r → OptionalCount tb t → OptionalCount mb m → OptionalCount nb n → OptionalCount ib i →
    OptionalCount gb g → c.params = [lane] ++ wb ++ rb ++ tb ++ mb ++ nb ++ ib ++ gb → ∀ ok : Prop,
    ok = ((∀ x, w = some x → 1 ≤ x ∧ x ≤ 32) ∧ (∀ x, r = some x → x ≤ 15) ∧ (∀ x, t = some x → 1 ≤ x ∧ x ≤ 1000)
      ∧ (∀ x, m = some x → 128 ≤ x ∧ x ≤ 4096 ∧ x % 64 = 0) ∧ (∀ x, n = some x → 1 ≤ x ∧ x ≤ 255)) →
    (16 ≤ lane.toNat → exec .laneConfig s = .next (s.answered c rest .badRange []))
    ∧ ∀ (l : LaneId) (ln : Lane) (asm : AssemblyConfig) (ldu : DeliveryConfig), lane.toNat = l.val → ln = s.lane l →
      asm = ⟨m.getD ln.asm.config.maxBytes, n.getD ln.asm.config.recordLimit, i.getD ln.asm.config.idleLimit,
        g.getD ln.asm.config.ageLimit⟩ →
      ldu = ⟨w.getD ln.ldu.config.window, r.getD ln.ldu.config.retryLimit, t.getD ln.ldu.config.timeoutMs⟩ →
      (ln.ldu.state = .open ∨ ln.ldu.state = .draining → exec .laneConfig s = .next (s.answered c rest .laneBusy []))
      ∧ (ln.ldu.state = .stalled → exec .laneConfig s = .next (s.answered c rest .laneStalled []))
      ∧ (ln.ldu.state = .disabled → ¬ ok → exec .laneConfig s = .next (s.answered c rest .badRange []))
      ∧ (ln.ldu.state = .disabled → ok →
        exec .laneConfig s = .next ((s.setLane l ⟨{ ln.asm with config := asm }, { ln.ldu with config := ldu }⟩).answered c rest .ok
          ([lane] ++ encCount ldu.window ++ encCount ldu.retryLimit ++ encCount ldu.timeoutMs ++ encCount asm.maxBytes
            ++ encCount asm.recordLimit ++ encCount asm.idleLimit ++ encCount asm.ageLimit)))

/-- LANE_START and LANE_STOP by the tables of R137 and R138. A start opens the lane with an empty open bundle and both timers stopped (R107). A stop of an OPEN lane drains it: DRAINING, the open bundle with records closed with DRAIN and handed off (R108, R134), and DISABLED at once with LANE_DRAINED when it is empty (R135). A handoff still offered is taken first, and the DRAIN close is handed off in the same event, by assumption 7; result bytes by assumption 11. -/
def Obligations.LaneStartAndStopByTheirTables : Prop :=
  ∀ (s : State) (c : Command) (rest : List Command) (lane : Byte), s.mu.epoch = some c.epoch → c.params = [lane] →
    (s.begins 0x52 c rest →
      (16 ≤ lane.toNat → exec .laneStart s = .next (s.answered c rest .badRange []))
      ∧ ∀ (l : LaneId) (ln : Lane), lane.toNat = l.val → ln = s.lane l →
        (ln.ldu.state = .disabled → exec .laneStart s = .next ((s.setLane l
          ⟨{ ln.asm with openB := some ⟨l, .open, [], 0, 0, none, none, none, none, 0⟩, idle := .stopped, age := .stopped },
           { ln.ldu with state := .open }⟩).answered c rest .ok [0x01]))
        ∧ (ln.ldu.state = .open → exec .laneStart s = .next (s.answered c rest .laneBusy [0x01]))
        ∧ (ln.ldu.state = .draining → exec .laneStart s = .next (s.answered c rest .laneBusy [0x02]))
        ∧ (ln.ldu.state = .stalled → exec .laneStart s = .next (s.answered c rest .laneStalled [0x03])))
    ∧ (s.begins 0x53 c rest →
      (16 ≤ lane.toNat → exec .laneStop s = .next (s.answered c rest .badRange []))
      ∧ ∀ (l : LaneId) (ln st : Lane), lane.toNat = l.val → ln = s.lane l → st = ln.settle l →
        (ln.ldu.state = .disabled → exec .laneStop s = .next (s.answered c rest .laneDisabled [0x00]))
        ∧ (ln.ldu.state = .draining → exec .laneStop s = .next (s.answered c rest .already [0x02]))
        ∧ (ln.ldu.state = .stalled → ln.ldu.drainRequested = true → exec .laneStop s = .next (s.answered c rest .already [0x03]))
        ∧ (ln.ldu.state = .stalled → ln.ldu.drainRequested = false → exec .laneStop s = .next
          ((s.setLane l { ln with ldu := { ln.ldu with drainRequested := true } }).answered c rest .ok [0x03]))
        ∧ (ln.ldu.state = .open → ∀ b, st.asm.openB = some b → b.records ≠ [] → b.closeReason = none → ∀ closed : Bundle,
          closed = { b with closeTime := some s.deviceTime, closeReason := some .drain } →
          exec .laneStop s = .next (((s.setLane l ((({ st with ldu := { st.ldu with state := .draining } } : Lane).close
            s.deviceTime .drain).handOff l closed)).answered c rest .ok [0x02]).arbitrate))
        ∧ (ln.ldu.state = .open → (∀ b, st.asm.openB = some b → b.records = [] ∧ b.cells = 0 ∧ b.seq = none ∧ b.closeReason = none) →
          (st.asm.pendingB ≠ none ∨ st.ldu.ready ≠ [] ∨ st.ldu.retention ≠ [] → exec .laneStop s = .next
            (((s.setLane l { st with ldu := { st.ldu with state := .draining } }).answered c rest .ok [0x02]).arbitrate))
          ∧ (st.asm.pendingB = none → st.ldu.ready = [] → st.ldu.retention = [] → exec .laneStop s = .next
            ((((s.setLane l ⟨{ st.asm with openB := none, pendingB := none, idle := .stopped, age := .stopped },
              { st.ldu with
                state := .disabled, a := 0, r := 0, s := 0, c := 0, g := 0, ready := [], retention := [], timer := .stopped
                retry := 0, drainRequested := false }⟩).notify .laneDrained l).answered c rest .ok [0x00]).arbitrate))))

/-- LANE_RESET (R109, R139, R161): on a DISABLED lane nothing changes; otherwise a frame of the lane in mode SENDING is cut and counts ABORTS, every bundle is discarded, on the wire or off it, and the lane is DISABLED with its counters zero, its configurations and counter groups kept. A frame already cut is not cut again by assumption 12; result bytes by assumptions 11 and 27. -/
def Obligations.LaneResetDiscardsTheLane : Prop :=
  ∀ (s : State) (c : Command) (rest : List Command) (lane : Byte), s.begins 0x54 c rest → s.mu.epoch = some c.epoch → c.params = [lane] →
    (16 ≤ lane.toNat → exec .laneReset s = .next (s.answered c rest .badRange []))
    ∧ ∀ (l : LaneId) (ln : Lane), lane.toNat = l.val → ln = s.lane l →
      (ln.ldu.state = .disabled → exec .laneReset s = .next (s.answered c rest .ok [0x00, 0x00, 0x00, 0x00]))
      ∧ (ln.ldu.state ≠ .disabled → ∀ (cut : Bool) (s0 : State) (aborts : Word),
        (cut = true ∧ (∃ carried bytes, s.trunk.outbound = some (.bundle l .sending carried bytes)
            ∧ s0 = { s with trunk := { s.trunk with outbound := some (.bundle l .cutting carried bytes) } })
            ∧ aborts = satInc ln.ldu.counters.aborts
          ∨ cut = false ∧ (∀ carried bytes, s.trunk.outbound ≠ some (.bundle l .sending carried bytes)) ∧ s0 = s
            ∧ aborts = ln.ldu.counters.aborts) →
        exec .laneReset s = .next ((((ln.asm.openB.toList ++ ln.asm.pendingB.toList ++ ln.ldu.ready ++ ln.ldu.retention).foldl
            (State.discard l) s0).setLane l
          ⟨{ ln.asm with openB := none, pendingB := none, idle := .stopped, age := .stopped },
           { ln.ldu with
              state := .disabled, a := 0, r := 0, s := 0, c := 0, g := 0, ready := [], retention := [], timer := .stopped
              retry := 0, drainRequested := false, counters := { ln.ldu.counters with aborts := aborts } }⟩).answered c rest .ok
            ([0x00] ++ encCount (ln.ldu.ready.length + ln.ldu.retention.length + ln.asm.pendingB.toList.length
              + (if ∀ b, ln.asm.openB = some b → b.records = [] then 0 else 1)) ++ encFlag cut)))

/-! ## The trunk (chapter 7) -/

/-- LINK_UP (R142, R148): the link becomes UP, and each OPEN or DRAINING lane with retained bundles starts its retransmit timer. LINK_DOWN (R141, R149, R183): the inbound frame, the frame on the wire, the responses, the queued commands and the session are gone, a RELEASING bundle's cells are freed, every lane sets G to S and stops its retransmit timer, phase 3 of a reset that waited for a cut frame ends, and a command that waited at its end for room ends. A LINK_UP with the link UP and a LINK_DOWN with the link DOWN cannot occur and change nothing: assumption 2. -/
def Obligations.LinkChangesReachEveryBlock : Prop :=
  (∀ s : State, s.resetN = true →
    (s.trunk.linkUp = true → exec .linkUp s = .next s)
    ∧ (s.trunk.linkUp = false → ∃ lanes : Vector Lane 16,
      exec .linkUp s = .next (({ s with lanes := lanes, trunk := { s.trunk with linkUp := true } } : State).arbitrate)
      ∧ ∀ l : LaneId, lanes[l] = { s.lane l with ldu := { (s.lane l).ldu with
        timer := if ((s.lane l).ldu.state = .open ∨ (s.lane l).ldu.state = .draining) ∧ (s.lane l).ldu.retention ≠ [] then
            .running (s.deviceTime + BitVec.ofNat 32 (1000 * (s.lane l).ldu.config.timeoutMs)) false
          else (s.lane l).ldu.timer } }))
  ∧ ∀ s : State, s.resetN = true →
    (s.trunk.linkUp = false → exec .linkDown s = .next s)
    ∧ (s.trunk.linkUp = true → ∃ (lanes : Vector Lane 16) (pool : Pool) (mu : Mu),
      exec .linkDown s = .next { s with
        lanes := lanes, pool := pool, mu := mu
        trunk := { s.trunk with
          linkUp := false, inbound := none, outbound := none, responses := []
          counters := { s.trunk.counters with linkLosses := satInc s.trunk.counters.linkLosses } } }
      ∧ (∀ l : LaneId, lanes[l] = { s.lane l with ldu := { (s.lane l).ldu with g := (s.lane l).ldu.s, timer := .stopped } })
      ∧ (∀ l mode b bytes, s.trunk.outbound = some (.bundle l mode (.releasing b) bytes) → pool = (s.freeCells b.cells).pool)
      ∧ ((∀ l mode b bytes, s.trunk.outbound ≠ some (.bundle l mode (.releasing b) bytes)) → pool = s.pool)
      ∧ ∀ m : Mu, m = { s.mu with
          epoch := none, queue := [], commandsDiscarded := satAdd s.mu.commandsDiscarded s.mu.queue.length } →
        (∀ c aborted, s.mu.executing = some ⟨c, .cutting aborted⟩ → mu = { m with executing := some ⟨c, .phase4Due aborted⟩ })
        ∧ (∀ c r, (s.mu.executing = some ⟨c, .done r⟩ ∨ s.mu.executing = some ⟨c, .resetDone r⟩) → 8 ≤ s.trunk.responses.length →
          mu = { m with executing := none, last := some ⟨c.epoch, c.seq, r⟩, commandsDone := satInc m.commandsDone })
        ∧ (∀ c r, (s.mu.executing = some ⟨c, .done r⟩ ∨ s.mu.executing = some ⟨c, .resetDone r⟩) → s.trunk.responses.length < 8 →
          mu = m)
        ∧ (s.mu.executing = none ∨ (∃ c, s.mu.executing = some ⟨c, .abandoning⟩ ∨ s.mu.executing = some ⟨c, .phase3Due⟩
            ∨ (∃ clear left result, s.mu.executing = some ⟨c, .reading clear left result⟩) ∨ ∃ aborted, s.mu.executing = some ⟨c, .phase4Due aborted⟩) → mu = m))

/-- The inbound trunk (R151, R152, R153, R155): a start delimiter with the link UP begins a frame and counts a frame it cuts short; the 270th byte makes the frame too long; an abort delimiter discards it; an end delimiter judges it by five checks in order. A good command frame is handed on as a command arrival; a good lane control frame counts its updates and hands them on in order, refusing those for a lane above 15. The list in flight is the model's own (assumption 8), and so is that a byte or delimiter with no inbound frame changes nothing (assumption 2). -/
def Obligations.InboundFramesAreJudged : Prop :=
  (∀ s : State, s.resetN = true →
    exec .trunkStartDelimiter s = .next (if s.trunk.linkUp then { s with trunk := { s.trunk with
      inbound := some (.receiving [])
      counters := { s.trunk.counters with inLengthErrors :=
        (if s.trunk.inbound = none then s.trunk.counters.inLengthErrors else satInc s.trunk.counters.inLengthErrors) } } } else s)
    ∧ exec .trunkAbortDelimiter s = .next { s with trunk := { s.trunk with inbound := none } }
    ∧ (s.trunk.inbound = none → exec .trunkEndDelimiter s = .next s)
    ∧ ∀ b : Byte,
      (∀ bytes, s.trunk.inbound = some (.receiving bytes) → exec (.trunkByteArrival b) s = .next { s with trunk := { s.trunk with
        inbound := some (if bytes.length < 269 then .receiving (bytes ++ [b]) else .tooLong) } })
      ∧ (s.trunk.inbound = none ∨ s.trunk.inbound = some .tooLong → exec (.trunkByteArrival b) s = .next s))
  ∧ ∀ (s s0 : State) (count : (TrunkCounters → TrunkCounters) → State), s.resetN = true →
    s0 = { s with trunk := { s.trunk with inbound := none } } →
    (∀ f, count f = { s0 with trunk := { s0.trunk with counters := f s.trunk.counters } }) →
    (s.trunk.inbound = some .tooLong →
      exec .trunkEndDelimiter s = .next (count fun c => { c with inLengthErrors := satInc c.inLengthErrors }))
    ∧ ∀ bytes, s.trunk.inbound = some (.receiving bytes) →
      (bytes.length < 8 → exec .trunkEndDelimiter s = .next (count fun c => { c with inLengthErrors := satInc c.inLengthErrors }))
      ∧ (8 ≤ bytes.length → checkCorrect bytes = false →
        exec .trunkEndDelimiter s = .next (count fun c => { c with inCheckErrors := satInc c.inCheckErrors }))
      ∧ (8 ≤ bytes.length → checkCorrect bytes = true →
        (bytes[0]? ≠ some s.trunk.unit →
          exec .trunkEndDelimiter s = .next (count fun c => { c with inUnitMismatch := satInc c.inUnitMismatch }))
        ∧ (bytes[0]? = some s.trunk.unit → bytes[1]? ≠ some 0x21 → bytes[1]? ≠ some 0x22 →
          exec .trunkEndDelimiter s = .next (count fun c => { c with inUnknownKind := satInc c.inUnknownKind }))
        ∧ (bytes[0]? = some s.trunk.unit →
          (bytes[1]? = some 0x21 ∧ (∀ n, bytes[2]? = some n → n = 0 ∨ 16 < n.toNat ∨ bytes.length ≠ 7 + 8 * n.toNat)
            ∨ bytes[1]? = some 0x22 ∧ (∀ n, bytes[9]? = some n → bytes.length ≠ 14 + n.toNat)) →
          exec .trunkEndDelimiter s = .next (count fun c => { c with inLengthErrors := satInc c.inLengthErrors }))
        ∧ (∀ (c : Command) (check : List Byte), check.length = 4 → c.params.length < 256 → bytes = [s.trunk.unit, 0x22] ++ enc32 c.epoch
            ++ enc16 c.seq ++ [c.code] ++ enc8 c.params.length ++ c.params ++ check →
          ∀ t, t = count (fun k => { k with framesInOk := satInc k.framesInOk }) →
          exec .trunkEndDelimiter s = .next (({ t with trunk := { t.trunk with handed := s.trunk.handed ++ [.arrival c] } } : State).arbitrate))
        ∧ (∀ (us : List (Byte × Byte × SeqNo × SeqNo × SeqNo)) (check : List Byte), check.length = 4 → 1 ≤ us.length → us.length ≤ 16 →
          bytes = [s.trunk.unit, 0x21] ++ enc8 us.length
            ++ us.flatMap (fun u => [u.1, u.2.1] ++ enc16 u.2.2.1 ++ enc16 u.2.2.2.1 ++ enc16 u.2.2.2.2) ++ check →
          exec .trunkEndDelimiter s = .next ((us.foldl (fun (x : State) u =>
              if h : u.1.toNat < 16 then { x with trunk := { x.trunk with handed := x.trunk.handed ++
                [.update ⟨⟨u.1.toNat, h⟩, u.2.2.1, u.2.2.2.1, if u.2.1.getLsbD 0 then some u.2.2.2.2 else none⟩] } }
              else (x.countTrunk fun c => { c with updateRefused := satInc c.updateRefused }).raise srcTrunkProtocol)
            (count fun k => { k with
              framesInOk := satInc k.framesInOk, laneUpdates := satAdd k.laneUpdates us.length })).arbitrate)))

/-- The arbiter (R157, R158, R159): with the wire free, the link UP and no request of its own waiting, it starts the response at the head of the queue, whose freed place a command waiting at its end takes at once (R176); else asks for a batch when a session is OPEN and a notice waits; else, but for a DATAPATH_RESET in execution, sends a send start request to the first eligible lane after the lane last served. A lane is eligible when it is OPEN or DRAINING, the link is UP, and R < S, or S < C and S < G (R124). The request in flight is the model's own: assumption 6. -/
def Obligations.ArbiterChoosesInOrder : Prop :=
  (∀ (s : State) (l : LaneId) (u : Ldu), u = (s.lane l).ldu →
    (s.eligible l = true ↔ (u.state = .open ∨ u.state = .draining) ∧ s.trunk.linkUp = true
      ∧ (isNewer u.s u.r = true ∨ (isNewer u.c u.s = true ∧ isNewer u.g u.s = true))))
  ∧ ∀ s : State,
    (s.trunk.outbound ≠ none ∨ s.trunk.linkUp = false ∨ s.trunk.request ≠ .none → s.arbitrate = s)
    ∧ (s.trunk.outbound = none → s.trunk.linkUp = true → s.trunk.request = .none →
      (∀ r rest, s.trunk.responses = r :: rest → ∀ t : Trunk,
        t = { s.trunk with responses := rest, outbound := some (.response r (r.frame s.trunk.unit)) } →
        (rest.length < 7 ∨ (∀ c r', s.mu.executing ≠ some ⟨c, .done r'⟩ ∧ s.mu.executing ≠ some ⟨c, .resetDone r'⟩) →
          s.arbitrate = { s with trunk := t })
        ∧ (7 ≤ rest.length → ∀ c r', s.mu.executing = some ⟨c, .done r'⟩ ∨ s.mu.executing = some ⟨c, .resetDone r'⟩ →
          s.arbitrate = { s with
            trunk := { t with responses := rest ++ [r'] }
            mu := { s.mu with
              executing := none, last := some ⟨c.epoch, c.seq, r'⟩, commandsDone := satInc s.mu.commandsDone } }))
      ∧ (s.trunk.responses = [] →
        (s.mu.epoch ≠ none → s.notices.queue ≠ [] → s.arbitrate = { s with trunk := { s.trunk with request := .batch } })
        ∧ (s.mu.epoch = none ∨ s.notices.queue = [] →
          (s.resetInExecution = true ∨ (∀ l, s.eligible l = false) → s.arbitrate = s)
          ∧ (s.resetInExecution = false → ∀ k : LaneId, s.eligible (s.trunk.lastServed + 1 + k) = true →
            (∀ j : LaneId, j < k → s.eligible (s.trunk.lastServed + 1 + j) = false) →
            s.arbitrate = { s with trunk := { s.trunk with request := .sendStart (s.trunk.lastServed + 1 + k) } }))))

/-- The bytes of the three outbound frames (R91, R156, R201, R205): unit number, kind, and a response, a batch of notices, or the bundle header and the records in their bound and unbound forms, then the frame check over them. The ends of outbound frames (R156, R160, R162) and the notice batch (R193): an end delimiter frees the wire and counts FRAMES_OUT; a RELEASING bundle's cells are freed at the end of its frame; a cut frame counts nothing and ends phase 3 of a reset that waited for it. A batch is the up to 8 oldest notices with the next frame sequence and the overflow count. The batch request in flight is the model's own (assumption 6), and so is the arbiter's choice when a request finds no batch (assumption 24). -/
def Obligations.OutboundFramesEnd : Prop :=
  (∀ (unit : Byte) (frame : List Byte → List Byte), (∀ body, frame body = body ++ enc32 (frameCheck body)) →
    (∀ r : Response, r.frame unit = frame ([unit, 0x32] ++ enc16 r.seq ++ [r.code] ++ enc8 r.status.code
      ++ [if r.replayed then 0x01 else 0x00] ++ encCount r.result.length ++ r.result))
    ∧ (∀ n : NoticeBatch, n.frame unit = frame ([unit, 0x33] ++ enc16 n.frameSeq ++ enc16 n.overflow ++ enc8 n.notices.length
      ++ n.notices.flatMap fun x => enc8 x.kind.code ++ (match x.subject with | .none => [0xFF] | .port p => enc8 p | .lane l => enc8 l)
        ++ enc32 x.time ++ enc16 x.count))
    ∧ ∀ (b : Bundle) (reason : CloseReason) (q : SeqNo) (opened closed : Word), b.closeReason = some reason → b.seq = some q →
      b.openTime = some opened → b.closeTime = some closed →
      b.frame unit = frame ([unit, 0x31] ++ enc8 b.lane ++ enc8 reason.code ++ enc16 q ++ enc8 b.records.length ++ enc8 b.resendCount
        ++ encCount b.payload ++ enc32 opened ++ enc32 closed ++ b.records.flatMap fun r => match r with
          | .bound stream ts value => [0x00] ++ encCount stream ++ enc8 value.length ++ enc32 ts ++ value
          | .unbound key rule ts value => [0x01] ++ enc8 key.port ++ enc24 key.station ++ enc16 key.tag ++ enc8 rule ++ enc32 ts
              ++ enc8 value.length ++ [0x00, 0x00, 0x00] ++ value))
  ∧ ([Status.ok, .busy, .noSession, .staleEpoch, .badCommand, .badLength, .badRange, .notFound, .bucketFull, .laneBusy,
      .laneDisabled, .laneStalled, .already, .empty].map Status.code = List.range 14
    ∧ [CloseReason.count, .fill, .idle, .age, .urgent, .flush, .drain].map CloseReason.code = List.range' 1 7
    ∧ [NoticeKind.portFault, .ingressOverflow, .unmatched, .laneFullDrop, .learnFailed, .poolLow, .poolEmptyDrop, .trunkProtocol,
      .laneStalled, .laneDrained].map NoticeKind.code = List.range' 1 10)
  ∧ ∀ (s free : State), s.resetN = true → free = { s with trunk := { s.trunk with outbound := none } } → ∀ out : State → State,
    (∀ x, out x = { x with trunk := { x.trunk with counters := { x.trunk.counters with
      framesOut := satInc x.trunk.counters.framesOut } } }) →
    (∀ bytes, ((∃ r, s.trunk.outbound = some (.response r bytes)) ∨ ∃ n, s.trunk.outbound = some (.notices n bytes)) →
      exec .outboundFrameEnd s = .next (out free).arbitrate)
    ∧ (∀ l q bytes, s.trunk.outbound = some (.bundle l .sending (.retained q) bytes) →
      exec .bundleFrameEnd s = .next (out free).arbitrate)
    ∧ (∀ l b bytes, s.trunk.outbound = some (.bundle l .sending (.releasing b) bytes) →
      exec .bundleFrameEnd s = .next (out (free.freeCells b.cells)).arbitrate)
    ∧ (∀ l carried bytes t, s.trunk.outbound = some (.bundle l .cutting carried bytes) →
      ((∃ q, carried = .retained q) ∧ t = free ∨ ∃ b, carried = .releasing b ∧ t = free.freeCells b.cells) →
      (∀ c aborted, s.mu.executing = some ⟨c, .cutting aborted⟩ →
        exec .cutFrameEnd s = .next ({ t with mu := { s.mu with executing := some ⟨c, .phase4Due aborted⟩ } } : State).arbitrate)
      ∧ ((∀ c aborted, s.mu.executing ≠ some ⟨c, .cutting aborted⟩) → exec .cutFrameEnd s = .next t.arbitrate))
    ∧ (s.trunk.request = .batch →
      (s.mu.epoch ≠ none → s.notices.queue ≠ [] → s.trunk.outbound = none →
        exec .noticeBatchRequest s = .next { s with
          notices := { s.notices with
            queue := s.notices.queue.drop 8, frameSeq := s.notices.frameSeq + 1, overflow := 0 }
          trunk := { s.trunk with
            request := .none
            outbound := some (.notices ⟨s.notices.frameSeq, s.notices.overflow, s.notices.queue.take 8⟩
              (NoticeBatch.frame s.trunk.unit ⟨s.notices.frameSeq, s.notices.overflow, s.notices.queue.take 8⟩)) } })
      ∧ (s.mu.epoch = none ∨ s.notices.queue = [] →
        exec .noticeBatchRequest s = .next ({ s with trunk := { s.trunk with request := .none } } : State).arbitrate))

/-! ## Management (chapter 8) -/

/-- COMMAND_ARRIVAL by the five cases of R170 in order: discarded with the link DOWN; a repeat of the last-completed command replayed, or discarded with no room (R171); a repeat of a waiting or executing one discarded; a full command queue answered BUSY, or discarded with no room (R172); otherwise queued. The oldest arrival in flight is taken, whatever updates were handed on before it (R155); the list is the model's own (assumptions 8 and 9), and so is that nothing happens with none in flight (assumption 2). -/
def Obligations.CommandArrivalByItsFiveCases : Prop :=
  (∀ s : State, s.resetN = true → (∀ c, Handover.arrival c ∉ s.trunk.handed) → exec .commandArrival s = .next s)
  ∧ ∀ (s : State) (c : Command) (before : List LaneUpdate) (after : List Handover) (t : Trunk), s.resetN = true →
    s.trunk.handed = before.map Handover.update ++ .arrival c :: after →
    t = { s.trunk with handed := before.map Handover.update ++ after } → ∀ (repeated waiting : Prop),
    repeated = (∃ x, s.mu.last = some x ∧ x.epoch = c.epoch ∧ x.seq = c.seq) →
    waiting = ((∃ q ∈ s.mu.queue, q.epoch = c.epoch ∧ q.seq = c.seq)
      ∨ ∃ x, s.mu.executing = some x ∧ x.command.epoch = c.epoch ∧ x.command.seq = c.seq) →
    (s.trunk.linkUp = false → exec .commandArrival s = .next { s with
      trunk := t, mu := { s.mu with commandsDiscarded := satInc s.mu.commandsDiscarded } })
    ∧ (s.trunk.linkUp = true →
      (∀ x, s.mu.last = some x → x.epoch = c.epoch → x.seq = c.seq →
        (s.trunk.responses.length < 8 → exec .commandArrival s = .next ({ s with
          trunk := { t with responses := s.trunk.responses ++ [{ x.response with replayed := true }] }
          mu := { s.mu with replays := satInc s.mu.replays } } : State).arbitrate)
        ∧ (8 ≤ s.trunk.responses.length → exec .commandArrival s = .next { s with
          trunk := t, mu := { s.mu with commandsDiscarded := satInc s.mu.commandsDiscarded } }))
      ∧ (¬ repeated → waiting → exec .commandArrival s = .next { s with
        trunk := t, mu := { s.mu with duplicatesDiscarded := satInc s.mu.duplicatesDiscarded } })
      ∧ (¬ repeated → ¬ waiting → 8 ≤ s.mu.queue.length →
        (s.trunk.responses.length < 8 → exec .commandArrival s = .next ({ s with
          trunk := { t with responses := s.trunk.responses ++ [⟨c.seq, c.code, .busy, false, []⟩] }
          mu := { s.mu with commandsBusy := satInc s.mu.commandsBusy } } : State).arbitrate)
        ∧ (8 ≤ s.trunk.responses.length → exec .commandArrival s = .next { s with
          trunk := t, mu := { s.mu with commandsDiscarded := satInc s.mu.commandsDiscarded } }))
      ∧ (¬ repeated → ¬ waiting → s.mu.queue.length < 8 → exec .commandArrival s = .next { s with
        trunk := t, mu := { s.mu with queue := s.mu.queue ++ [c] } }))

/-- COMMAND_END (R176): with its response ready and room, the command places it, the last-completed record takes it, COMMANDS_DONE adds one and no command is in execution; with the link DOWN the response is discarded; without room the command waits. -/
def Obligations.CommandEndsAtItsPlacement : Prop :=
  ∀ (s : State) (c : Command) (r : Response), s.resetN = true →
    s.mu.executing = some ⟨c, .done r⟩ ∨ s.mu.executing = some ⟨c, .resetDone r⟩ →
    (8 ≤ s.trunk.responses.length → exec .commandEnd s = .next s)
    ∧ (s.trunk.responses.length < 8 → exec .commandEnd s = .next ({ s with
      trunk := { s.trunk with responses := if s.trunk.linkUp then s.trunk.responses ++ [r] else s.trunk.responses }
      mu := { s.mu with
        executing := none, last := some ⟨c.epoch, c.seq, r⟩, commandsDone := satInc s.mu.commandsDone } } : State).arbitrate)

/-- The beginning of an execution (R173, R174, R175): an unknown code is BAD_COMMAND; parameter bytes that do not hold the command's fields are BAD_LENGTH; a failed session check is NO_SESSION or STALE_EPOCH; the refusal has no other effect. With a command in execution, or none queued, nothing begins (assumption 2); a READ_COUNTERS with owners left goes on (R197). That a row takes the head of the queue, and its checks and effect in one event, is the model's own: assumption 5. -/
def Obligations.CommandsAreJudgedAtTheirBeginning : Prop :=
  (∀ (s : State) (c : Command) (rest : List Command) (code : Byte), s.begins code c rest → (∀ i, commandCode i ≠ some code) →
    exec .unknownCommandCode s = .next (s.answered c rest .badCommand []))
  ∧ (∀ (i : Instr) (s : State) (c : Command) (rest : List Command) (code : Byte), commandCode i = some code → s.begins code c rest →
    (parametersHold i c.params = false → exec i s = .next (s.answered c rest .badLength []))
    ∧ (parametersHold i c.params = true → ¬ sessionAllows (sessionNeedOf i c.params) c.epoch s.mu.epoch →
      exec i s = .next (s.answered c rest (if s.mu.epoch = none then .noSession else .staleEpoch) [])))
  ∧ ∀ (i : Instr) (s : State), commandCode i ≠ none ∨ i = .unknownCommandCode → s.resetN = true →
    s.mu.executing ≠ none ∨ s.mu.queue = [] →
    (i = .readCounters → ∀ c clear left result, s.mu.executing ≠ some ⟨c, .reading clear left result⟩) → exec i s = .next s

/-- OPEN_SESSION and CLOSE_SESSION (R167, R168, R169): an epoch above the last one used, as an unsigned number, opens or takes over the session and re-arms every notice source; any other is STALE_EPOCH. A close makes the current epoch absent and keeps the last one used. Result bytes by assumptions 11 and 27. -/
def Obligations.SessionsOpenAndClose : Prop :=
  ∀ (s : State) (c : Command) (rest : List Command), c.params = [] →
    (s.begins 0x01 c rest →
      (c.epoch.toNat ≤ s.mu.lastEpoch.toNat → exec .openSession s = .next (s.answered c rest .staleEpoch []))
      ∧ (s.mu.lastEpoch.toNat < c.epoch.toNat → exec .openSession s = .next ((({ s with
          mu := { s.mu with epoch := some c.epoch, lastEpoch := c.epoch }
          notices := (s.notices.rearmAll s.deviceTime fun _ => true).1 } : State).answered c rest .ok
            (enc32 c.epoch ++ encFlag s.mu.epoch.isSome)).arbitrate)))
    ∧ (s.begins 0x02 c rest → s.mu.epoch = some c.epoch →
      exec .closeSession s = .next (({ s with mu := { s.mu with epoch := none } } : State).answered c rest .ok (enc32 c.epoch)))

/-- READ_STATUS (R178) changes nothing and reports, by scope: DEVICE, PORT p with the fill and the hold line by its four conditions (R21, R26), LANE l (R112, R145), or POOL (R87); a scope that is not one of the four, or a number that names no port or lane, is BAD_RANGE. The codes of the port and lane states (R204), and of the actions and stale policies (R202), sent and read. Result bytes by assumptions 11 and 20. -/
def Obligations.ReadStatusReportsTheScope : Prop :=
  ([PortState.disabled, .down, .up, .fault].map PortState.code = [0x00, 0x01, 0x02, 0x03]
    ∧ [LaneState.disabled, .open, .draining, .stalled].map LaneState.code = [0x00, 0x01, 0x02, 0x03]
    ∧ [Action.place, .drop].map Action.code = [0x00, 0x01]
    ∧ [StalePolicy.keep, .dropOlder, .dropNotNewer].map StalePolicy.code = [0x00, 0x01, 0x02]
    ∧ ∀ b : Byte, (∀ a, Action.ofCode b = some a ↔ b.toNat = a.code) ∧ ∀ k, StalePolicy.ofCode b = some k ↔ b.toNat = k.code)
  ∧ ∀ (s : State) (c : Command) (rest : List Command) (scope : Byte) (bytes : List Byte) (number : Option Nat), s.begins 0x03 c rest →
    c.epoch = 0 ∨ s.mu.epoch = some c.epoch → OptionalCount bytes number → c.params = [scope] ++ bytes →
    (scope = 0x00 → exec .readStatus s = .next (s.answered c rest .ok ([0x00, s.trunk.unit] ++ enc32 s.deviceTime
      ++ encBit s.trunk.linkUp ++ encBit s.mu.epoch.isSome ++ encOpt enc32 s.mu.epoch ++ enc32 s.mu.lastEpoch
      ++ enc16 s.rules.version)))
    ∧ (scope = 0x01 → ∀ (p : PortId) (hold : Bool), number = some p.val →
      (hold = true ↔ (s.port p).state = .disabled ∨ (s.port p).state = .fault ∨ s.pool.held = true ∨ (s.port p).resetMark = true
        ∨ (s.port p).fifoHigh = true) →
      exec .readStatus s = .next (s.answered c rest .ok ([0x01] ++ encCount p ++ enc8 (s.port p).state.code
        ++ encCount (s.port p).fill ++ encBit hold)))
    ∧ (scope = 0x02 → ∀ (l : LaneId) (u : Ldu), number = some l.val → u = (s.lane l).ldu →
      exec .readStatus s = .next (s.answered c rest .ok ([0x02] ++ encCount l ++ enc8 u.state.code ++ enc16 u.a ++ enc16 u.r
        ++ enc16 u.s ++ enc16 u.c ++ enc16 u.g ++ encCount u.ready.length ++ encCount u.retention.length ++ encCount u.retry
        ++ encBit u.drainRequested ++ encBit (s.lane l).asm.pendingB.isSome)))
    ∧ (scope = 0x03 → exec .readStatus s = .next (s.answered c rest .ok ([0x03] ++ encCount s.pool.free
      ++ encCount s.pool.holdThreshold ++ encCount s.pool.releaseThreshold ++ encBit s.pool.held)))
    ∧ (3 < scope.toNat ∨ (scope = 0x01 ∧ ∀ n, number = some n → 8 ≤ n) ∨ (scope = 0x02 ∧ ∀ n, number = some n → 16 ≤ n) →
      exec .readStatus s = .next (s.answered c rest .badRange []))

/-- DATAPATH_RESET (R179 to R181). It is in execution from phase 1 until its response is placed. Phase 1: every port takes the reset mark, and its untaken complete frames and its ACCEPT frame in reception are removed, each counting RESET_DISCARDS (R22); phase 2: an IDLE Classifier has abandoned at once, a WORKING one takes the request (R72). Phase 3: a SENDING bundle frame is cut, and the phase waits for the end of a bundle frame on the wire (R163). Phases 4 to 7: every lane in service is DISABLED with nothing held, the pool is free and released, the dynamic state of the streams is cleared and the marks are cleared (R23, R45, R85, R143); the response carries aborted and the number of lanes reset. Phases 4 to 7 are one event by assumption 22; result bytes by assumptions 11 and 27. -/
def Obligations.DatapathResetGoesThroughItsPhases : Prop :=
  (∀ s : State,
    (s.resetInExecution = true ↔ ∃ c p, s.mu.executing = some ⟨c, p⟩
      ∧ (p = .abandoning ∨ p = .phase3Due ∨ (∃ aborted, p = .cutting aborted) ∨ (∃ aborted, p = .phase4Due aborted)
        ∨ ∃ r, p = .resetDone r))
    ∧ (s.trunk.bundleOnWire = true ↔ ∃ l mode carried bytes, s.trunk.outbound = some (.bundle l mode carried bytes)))
  ∧ (∀ (s : State) (c : Command) (rest : List Command), s.begins 0x04 c rest → s.mu.epoch = some c.epoch → c.params = [] →
    ∃ ports : Vector Port 8,
      (s.classifier.frame = none → exec .datapathReset s = .next { s with
        ports := ports, mu := { s.mu with queue := rest, executing := some ⟨c, .phase3Due⟩ } })
      ∧ (s.classifier.frame ≠ none → exec .datapathReset s = .next { s with
        ports := ports, classifier := { s.classifier with abandon := true }
        mu := { s.mu with queue := rest, executing := some ⟨c, .abandoning⟩ } })
      ∧ ∀ p : PortId, ports[p] = { s.port p with
          resetMark := true, complete := []
          reception := if (s.port p).accepting then some .spent else (s.port p).reception
          fifoHigh := (s.port p).fifoHigh && decide (1024 < ((s.port p).taken.getD []).length)
          counters := { (s.port p).counters with
            resetDiscards := satAdd (s.port p).counters.resetDiscards
              ((s.port p).complete.length + (if (s.port p).accepting then 1 else 0)) } })
  ∧ (∀ (s : State) (c : Command), s.resetN = true → s.mu.executing = some ⟨c, .phase3Due⟩ →
    ((∀ l mode carried bytes, s.trunk.outbound ≠ some (.bundle l mode carried bytes)) →
      exec .resetPhase3 s = .next { s with mu := { s.mu with executing := some ⟨c, .phase4Due false⟩ } })
    ∧ (∀ l carried bytes, s.trunk.outbound = some (.bundle l .cutting carried bytes) →
      exec .resetPhase3 s = .next { s with mu := { s.mu with executing := some ⟨c, .cutting false⟩ } })
    ∧ (∀ l carried bytes, s.trunk.outbound = some (.bundle l .sending carried bytes) →
      exec .resetPhase3 s = .next { s.setLane l { s.lane l with ldu := { (s.lane l).ldu with
          counters := { (s.lane l).ldu.counters with aborts := satInc (s.lane l).ldu.counters.aborts } } } with
        trunk := { s.trunk with outbound := some (.bundle l .cutting carried bytes) }
        mu := { s.mu with executing := some ⟨c, .cutting true⟩ } }))
  ∧ ∀ (s : State) (c : Command) (aborted : Bool), s.resetN = true → s.mu.executing = some ⟨c, .phase4Due aborted⟩ →
    s.trunk.bundleOnWire = false → ∃ (lanes : Vector Lane 16) (ports : Vector Port 8) (streams : StreamTable) (count : Nat),
    exec .resetPhase4 s = .next { s with
      lanes := lanes, ports := ports, streams := streams, pool := { s.pool with free := 4096, held := false }
      mu := { s.mu with executing := some ⟨c, .resetDone ⟨c.seq, c.code, .ok, false, encFlag aborted ++ encCount count⟩⟩ } }
    ∧ count = ((List.finRange 16).filter fun l => (s.lane l).ldu.state != .disabled).length
    ∧ (∀ l : LaneId, lanes[l] = if (s.lane l).ldu.state = .disabled then s.lane l else
      ⟨{ (s.lane l).asm with openB := none, pendingB := none, idle := .stopped, age := .stopped },
       { (s.lane l).ldu with
          state := .disabled, a := 0, r := 0, s := 0, c := 0, g := 0, ready := [], retention := [], timer := .stopped
          retry := 0, drainRequested := false }⟩)
    ∧ (∀ p : PortId, ports[p] = { s.port p with resetMark := false })
    ∧ streams.learned = s.streams.learned ∧ streams.learnFailed = s.streams.learnFailed
    ∧ ∀ n : StreamNo, (streams.slot n).generation = (s.streams.slot n).generation
      ∧ (streams.slot n).entry = (s.streams.slot n).entry.map fun e => { e with lastTimestamp := none, decimationCount := 0 }

/-- The active rule list is changed by RULE_APPLY and by power-on reset alone (R65), and the last epoch used by OPEN_SESSION and power-on reset alone, which raises it (R167); an undetermined state after a short RESET_N low is set apart (R206). -/
def Obligations.OnlyTheirCommandsChangeRulesAndEpoch : Prop :=
  ∀ (c : Instr) (s t : State), exec c s = .next t → c ≠ .powerOnReset →
    (∀ straps micros, c = .resetRelease straps micros → s.resetN = true ∨ 10 ≤ micros) →
    (c ≠ .ruleApply → t.rules.active = s.rules.active)
    ∧ (c ≠ .openSession → t.mu.lastEpoch = s.mu.lastEpoch)
    ∧ s.mu.lastEpoch.toNat ≤ t.mu.lastEpoch.toNat

/-! ## Notices and counters (chapter 9) -/

/-- Notices: the 44 sources with their kinds and subjects (R186); a block's event reaches its source, and a lane's notice the queue, at the device time (R185). An event at an ARMED source queues a notice of count 1 and leaves it QUIET, or loses it to a full queue and leaves it PENDING (R187, R191); at a QUIET or PENDING source it counts, saturating, and leaves it PENDING (R188). A re-arm of one source arms a QUIET one and delivers or loses a PENDING one's notice (R190). LANE_STALLED and LANE_DRAINED are queued or lost (R189). A re-arm of several takes them in increasing number (R190). NOTICE_REARM re-arms the sources named, or all 44, in increasing number (R192). Result bytes by assumption 11. -/
def Obligations.NoticeSourcesByTheirTables : Prop :=
  ((∀ p : PortId, (srcPortFault p).val = p.val ∧ sourceSubject (srcPortFault p) = (.portFault, .port p)
      ∧ (srcIngressOverflow p).val = 8 + p.val ∧ sourceSubject (srcIngressOverflow p) = (.ingressOverflow, .port p)
      ∧ (srcUnmatched p).val = 16 + p.val ∧ sourceSubject (srcUnmatched p) = (.unmatched, .port p))
    ∧ (∀ l : LaneId, (srcLaneFullDrop l).val = 24 + l.val ∧ sourceSubject (srcLaneFullDrop l) = (.laneFullDrop, .lane l))
    ∧ srcLearnFailed.val = 40 ∧ sourceSubject srcLearnFailed = (.learnFailed, .none)
    ∧ srcPoolLow.val = 41 ∧ sourceSubject srcPoolLow = (.poolLow, .none)
    ∧ srcPoolEmptyDrop.val = 42 ∧ sourceSubject srcPoolEmptyDrop = (.poolEmptyDrop, .none)
    ∧ srcTrunkProtocol.val = 43 ∧ sourceSubject srcTrunkProtocol = (.trunkProtocol, .none)
    ∧ (∀ (s : State) (i : SourceNo), s.raise i = { s with notices := s.notices.event s.deviceTime i })
    ∧ ∀ (s : State) (kind : NoticeKind) (l : LaneId),
      s.notify kind l = { s with notices := s.notices.unconditional s.deviceTime kind l })
  ∧ (∀ (u : NoticeUnit) (i : SourceNo) (x : Source), u.source i = u.sources[i] ∧ (u.setSource i x).source i = x
    ∧ (∀ j, j ≠ i → (u.setSource i x).source j = u.source j) ∧ u.setSource i x = { u with sources := (u.setSource i x).sources })
  ∧ (∀ (u : NoticeUnit) (now : Word) (concerned : SourceNo → Bool), u.rearmAll now concerned =
    ((List.finRange 44).filter concerned).foldl (NoticeUnit.rearm now) (u, ⟨0, 0, 0⟩))
  ∧ (∀ (u : NoticeUnit) (now : Word) (i : SourceNo), ∀ lost : NoticeUnit,
    lost = { u with overflow := satInc u.overflow, lost := satInc u.lost } → ∀ notice : BitVec 16 → Notice,
    (∀ n, notice n = ⟨(sourceSubject i).1, (sourceSubject i).2, now, n⟩) →
    ((u.source i).arming = .armed → u.queue.length < 32 → u.event now i =
      ({ u with queue := u.queue ++ [notice (satInc (u.source i).count)] } : NoticeUnit).setSource i ⟨.quiet, 0⟩)
    ∧ ((u.source i).arming = .armed → 32 ≤ u.queue.length → u.event now i = lost.setSource i ⟨.pending, satInc (u.source i).count⟩)
    ∧ ((u.source i).arming ≠ .armed → u.event now i = u.setSource i ⟨.pending, satInc (u.source i).count⟩)
    ∧ ∀ t : RearmTally,
      ((u.source i).arming = .armed → NoticeUnit.rearm now (u, t) i = (u, t))
      ∧ ((u.source i).arming = .quiet →
        NoticeUnit.rearm now (u, t) i = (u.setSource i ⟨.armed, (u.source i).count⟩, { t with armed := t.armed + 1 }))
      ∧ ((u.source i).arming = .pending → u.queue.length < 32 → NoticeUnit.rearm now (u, t) i =
        (({ u with queue := u.queue ++ [notice (u.source i).count] } : NoticeUnit).setSource i ⟨.quiet, 0⟩,
          { t with delivered := t.delivered + 1 }))
      ∧ ((u.source i).arming = .pending → 32 ≤ u.queue.length →
        NoticeUnit.rearm now (u, t) i = (lost, { t with lost := t.lost + 1 })))
  ∧ (∀ (u : NoticeUnit) (now : Word) (kind : NoticeKind) (l : LaneId),
    (u.queue.length < 32 → u.unconditional now kind l = { u with queue := u.queue ++ [⟨kind, .lane l, now, 1⟩] })
    ∧ (32 ≤ u.queue.length → u.unconditional now kind l = { u with overflow := satInc u.overflow, lost := satInc u.lost }))
  ∧ ∀ (s : State) (c : Command) (rest : List Command) (selection count : Byte) (sources : List Byte), s.begins 0x60 c rest →
    s.mu.epoch = some c.epoch → sources.length = count.toNat → c.params = [selection, count] ++ sources →
    (selection.toNat ≥ 2 ∨ (selection = 0x00 ∧ (sources = [] ∨ ∃ b ∈ sources, 44 ≤ b.toNat)) →
      exec .noticeRearm s = .next (s.answered c rest .badRange []))
    ∧ ∀ concerned : SourceNo → Bool,
      (selection = 0x01 ∧ (∀ i, concerned i = true)
        ∨ selection = 0x00 ∧ sources ≠ [] ∧ (∀ b ∈ sources, b.toNat < 44)
          ∧ ∀ i, concerned i = true ↔ ∃ b ∈ sources, b.toNat = i.val) →
      ∀ x : NoticeUnit × RearmTally,
      x = ((List.finRange 44).filter concerned).foldl (NoticeUnit.rearm s.deviceTime) (s.notices, ⟨0, 0, 0⟩) →
      exec .noticeRearm s = .next ((({ s with notices := x.1 } : State).answered c rest .ok
        (encCount x.2.armed ++ encCount x.2.delivered ++ encCount x.2.lost ++ encCount x.1.queue.length)).arbitrate)

/-- READ_COUNTERS (R196, R197): a group that is not one of the four, or a number that names no port or lane, is BAD_RANGE; else the command is taken as one event at each owner of its group, in the order of the table, the first of them at its beginning. In that event all of the owner's counters, in the order of 9.7, join the result as they stand before the clear, and a clearing read sets them to 0 and changes nothing else; after the last owner the response is ready, and before it a COMMAND_END finds none. The events' row and order are by assumption 10; result bytes by assumptions 11 and 20. -/
def Obligations.ReadCountersReadsAndClears : Prop :=
  (∀ (s : State) (c : Command) (rest : List Command) (group clear : Byte) (bytes : List Byte) (number : Option Nat),
    s.begins 0x61 c rest → s.mu.epoch = some c.epoch ∨ (clear = 0 ∧ c.epoch = 0) → OptionalCount bytes number →
    c.params = [group] ++ bytes ++ [clear] →
    (3 < group.toNat ∨ (group = 0x00 ∧ ∀ n, number = some n → 8 ≤ n) ∨ (group = 0x01 ∧ ∀ n, number = some n → 16 ≤ n) →
      exec .readCounters s = .next (s.answered c rest .badRange []))
    ∧ ∀ (head : List Byte) (o : CounterOwner) (left : List CounterOwner) (t : State),
      (group = 0x00 ∧ (∃ p : PortId, number = some p.val ∧ head = [0x00] ++ encCount p ∧ o = .port p ∧ left = [])
        ∨ group = 0x01 ∧ (∃ l : LaneId, number = some l.val ∧ head = [0x01] ++ encCount l ∧ o = .assembler l ∧ left = [.ldu l])
        ∨ group = 0x02 ∧ head = [0x02] ∧ o = .trunk ∧ left = []
        ∨ group = 0x03 ∧ head = [0x03] ∧ o = .classifier ∧ left = [.streams, .pool, .mu, .notices]) →
      t = (if clear = 0 then s else s.clearOwner o) →
      exec .readCounters s = .next { t with mu := { t.mu with
        queue := rest
        executing := some ⟨c, if left = [] then .done ⟨c.seq, c.code, .ok, false, head ++ (s.ownerCounters o).flatMap enc32⟩
          else .reading (clear != 0) left (head ++ (s.ownerCounters o).flatMap enc32)⟩ } })
  ∧ (∀ (s : State) (c : Command) (clear : Bool) (o : CounterOwner) (left : List CounterOwner) (result : List Byte) (t : State),
    s.resetN = true → s.mu.executing = some ⟨c, .reading clear (o :: left) result⟩ → t = (if clear then s.clearOwner o else s) →
    exec .readCounters s = .next { t with mu := { t.mu with
      executing := some ⟨c, if left = [] then .done ⟨c.seq, c.code, .ok, false, result ++ (s.ownerCounters o).flatMap enc32⟩
        else .reading clear left (result ++ (s.ownerCounters o).flatMap enc32)⟩ } }
    ∧ exec .commandEnd s = .next s)
  ∧ ∀ s : State,
    (∀ (p : PortId) (k : PortCounters), k = (s.port p).counters →
      s.ownerCounters (.port p) = [k.framesOk, k.checkErrors, k.lengthErrors, k.unknownKind, k.overflows, k.truncated,
        k.disabledDiscards, k.malformed, k.recordsSeen, k.noMatch, k.ruleDrops, k.resetDiscards]
      ∧ s.clearOwner (.port p) = s.setPort p { s.port p with counters := {} })
    ∧ (∀ (l : LaneId) (a : AssemblyCounters) (u : LduCounters), a = (s.lane l).asm.counters → u = (s.lane l).ldu.counters →
      s.ownerCounters (.assembler l) = [a.recordsPlaced, a.bytesPlaced, a.closeCount, a.closeFill, a.closeIdle, a.closeAge,
        a.closeUrgent, a.closeFlush, a.closeDrain, a.dropLaneFull, a.dropPoolEmpty, a.dropDisabled, a.dropDraining]
      ∧ s.clearOwner (.assembler l) = s.setLane l ⟨{ (s.lane l).asm with counters := {} }, (s.lane l).ldu⟩
      ∧ s.ownerCounters (.ldu l) = [u.bundlesSent, u.bundlesResent, u.retransmitExpiries, u.stalls, u.aborts]
      ∧ s.clearOwner (.ldu l) = s.setLane l ⟨(s.lane l).asm, { (s.lane l).ldu with counters := {} }⟩)
    ∧ (∀ k : TrunkCounters, k = s.trunk.counters →
      s.ownerCounters .trunk = [k.framesInOk, k.inCheckErrors, k.inUnitMismatch, k.inUnknownKind, k.inLengthErrors, k.laneUpdates,
        k.updateRefused, k.updateIdleLane, k.grantClamped, k.updatesDiscardedReset, k.framesOut, k.linkLosses]
      ∧ s.clearOwner .trunk = { s with trunk := { s.trunk with counters := {} } })
    ∧ s.ownerCounters .classifier = [s.classifier.staleDrops, s.classifier.duplicateDrops, s.classifier.thinned,
        s.classifier.classUnsetDrops, s.classifier.noLaneDrops]
    ∧ s.clearOwner .classifier = { s with classifier := { s.classifier with
        staleDrops := 0, duplicateDrops := 0, thinned := 0, classUnsetDrops := 0, noLaneDrops := 0 } }
    ∧ s.ownerCounters .streams = [s.streams.learned, s.streams.learnFailed]
    ∧ s.clearOwner .streams = { s with streams := { s.streams with learned := 0, learnFailed := 0 } }
    ∧ s.ownerCounters .pool = [s.pool.holdEvents]
    ∧ s.clearOwner .pool = { s with pool := { s.pool with holdEvents := 0 } }
    ∧ s.ownerCounters .mu = [s.mu.commandsDone, s.mu.commandsBusy, s.mu.commandsDiscarded, s.mu.duplicatesDiscarded, s.mu.replays]
    ∧ s.clearOwner .mu = { s with mu := { s.mu with
        commandsDone := 0, commandsBusy := 0, commandsDiscarded := 0, duplicatesDiscarded := 0, replays := 0 } }
    ∧ s.ownerCounters .notices = [s.notices.lost]
    ∧ s.clearOwner .notices = { s with notices := { s.notices with lost := 0 } }

/-! ## Invariants -/

/-- Every invariant of this section holds in the state after reset. -/
def Obligations.InvariantsHoldAtReset : Prop :=
  State.reset.PortsSound ∧ State.reset.LinkSound ∧ State.reset.notices.Sound ∧ State.reset.pool.Sound ∧ State.reset.streams.Sound
    ∧ State.reset.PhasesSound ∧ State.reset.LanesSound ∧ State.reset.CellsBalance

/-- Every step keeps the field ports sound: each line signal indication what its line carries (R5; while RESET_N is low by assumption 18), the FIFO fill at most 4096 and a stored frame at most 1024 bytes, FIFO-high by its two marks, ACCEPT frames on UP ports alone, UP and DOWN by the line signal, and FAULT by the consecutive-bad count (R4, R9, R10, R12, R18, R20). -/
def Obligations.EveryStepKeepsPortsSound : Prop :=
  ∀ s t : State, s.determined → s.PortsSound → step s = .next t → t.PortsSound

/-- Every step keeps link, session and queues consistent: with the link DOWN no session, command, response or frame in either direction; the session's epoch is the last epoch used and not 0; at most 8 commands and 8 responses wait (R149, R166, R167, R173, R183). -/
def Obligations.EveryStepKeepsLinkAndSessionSound : Prop :=
  ∀ s t : State, s.determined → s.LinkSound → step s = .next t → t.LinkSound

/-- Every step keeps the notice sources and queue sound (R185 to R191) and pool hold within its two thresholds (R74, R79, R80, R82). -/
def Obligations.EveryStepKeepsNoticesAndPoolHold : Prop :=
  ∀ s t : State, s.determined → s.notices.Sound → s.pool.Sound → step s = .next t → t.notices.Sound ∧ t.pool.Sound

/-- Every step keeps the stream table sound: no two entries share a key, and each entry sits in the bucket its key folds to (R28). -/
def Obligations.EveryStepKeepsStreamKeysApart : Prop :=
  ∀ s t : State, s.determined → s.streams.Sound → step s = .next t → t.streams.Sound

/-- Every step keeps the phases of DATAPATH_RESET consistent: the ports marked and empty from phase 1 to phase 7, the abandon request set in phase 2 alone, the Classifier IDLE after it, and no bundle frame on the wire after phase 3 (R22, R23, R72, R180). -/
def Obligations.EveryStepKeepsResetPhasesSound : Prop :=
  ∀ s t : State, s.determined → s.PhasesSound → step s = .next t → t.PhasesSound

/-- Every step keeps the lanes sound: a DISABLED lane holds nothing; A, R, S, C in order with S − A within W and C − S at most 32; the retention list A to S − 1 and the ready queue S to C − 1 in order; G between S and A + W; every bundle within its limits with the cells of its size; the timers and flags only where they may be (R75, R89, R100, R113 to R117, R130, R134). -/
def Obligations.EveryStepKeepsLanesSound : Prop :=
  ∀ s t : State, s.determined → s.LanesSound → step s = .next t → t.LanesSound

/-- Every step keeps the cells in balance: the free count is 4096 minus the cells that the bundles of the sixteen lanes and the wire hold (R78). -/
def Obligations.EveryStepKeepsCellsInBalance : Prop :=
  ∀ s t : State, s.determined → s.LanesSound → s.PhasesSound → s.CellsBalance → step s = .next t → t.CellsBalance
end

