-- ==== Sys2Proof/Laws/State.lean ====
section
/-! SUPPORT. One lemma per field per update of State, and the reads of the banked state after a write. -/

namespace Sys2Proof.Machine

/-! ### State.setLine -/

@[simp] theorem State.setLine_resetN (s : State) (p : PortId) (b : Bool) : (s.setLine p b).resetN = s.resetN := rfl
@[simp] theorem State.setLine_deviceTime (s : State) (p : PortId) (b : Bool) : (s.setLine p b).deviceTime = s.deviceTime := rfl
@[simp] theorem State.setLine_ports (s : State) (p : PortId) (b : Bool) : (s.setLine p b).ports = s.ports := rfl
@[simp] theorem State.setLine_classifier (s : State) (p : PortId) (b : Bool) : (s.setLine p b).classifier = s.classifier := rfl
@[simp] theorem State.setLine_streams (s : State) (p : PortId) (b : Bool) : (s.setLine p b).streams = s.streams := rfl
@[simp] theorem State.setLine_rules (s : State) (p : PortId) (b : Bool) : (s.setLine p b).rules = s.rules := rfl
@[simp] theorem State.setLine_map (s : State) (p : PortId) (b : Bool) : (s.setLine p b).map = s.map := rfl
@[simp] theorem State.setLine_pool (s : State) (p : PortId) (b : Bool) : (s.setLine p b).pool = s.pool := rfl
@[simp] theorem State.setLine_lanes (s : State) (p : PortId) (b : Bool) : (s.setLine p b).lanes = s.lanes := rfl
@[simp] theorem State.setLine_trunk (s : State) (p : PortId) (b : Bool) : (s.setLine p b).trunk = s.trunk := rfl
@[simp] theorem State.setLine_mu (s : State) (p : PortId) (b : Bool) : (s.setLine p b).mu = s.mu := rfl
@[simp] theorem State.setLine_notices (s : State) (p : PortId) (b : Bool) : (s.setLine p b).notices = s.notices := rfl
@[simp] theorem State.setLine_freeCount (s : State) (p : PortId) (b : Bool) : (s.setLine p b).freeCount = s.freeCount := rfl
@[simp] theorem State.setLine_pending (s : State) (p : PortId) (b : Bool) : (s.setLine p b).pending = s.pending := rfl
@[simp] theorem State.setLine_port (s : State) (p : PortId) (b : Bool) (q : PortId) : (s.setLine p b).port q = s.port q := rfl
@[simp] theorem State.setLine_lane (s : State) (p : PortId) (b : Bool) (l : LaneId) : (s.setLine p b).lane l = s.lane l := rfl
@[simp] theorem State.setPort_line (s : State) (p : PortId) (x : Port) (q : PortId) : (s.setPort p x).line q = s.line q := rfl

@[simp] theorem State.line_setLine (s : State) (p : PortId) (b : Bool) : (s.setLine p b).line p = b := by
  simp [State.line, State.setLine]

theorem State.line_setLine_ne (s : State) {p q : PortId} (b : Bool) (h : q ≠ p) : (s.setLine p b).line q = s.line q := by
  have : p.val ≠ q.val := fun e => h (Fin.ext e.symm)
  simp [State.line, State.setLine, this]

/-! ### State.setPort -/

@[simp] theorem State.setPort_resetN (s : State) (p : PortId) (x : Port) : (s.setPort p x).resetN = s.resetN := rfl
@[simp] theorem State.setPort_lines (s : State) (p : PortId) (x : Port) : (s.setPort p x).lines = s.lines := rfl
@[simp] theorem State.setPort_deviceTime (s : State) (p : PortId) (x : Port) : (s.setPort p x).deviceTime = s.deviceTime := rfl
@[simp] theorem State.setPort_classifier (s : State) (p : PortId) (x : Port) : (s.setPort p x).classifier = s.classifier := rfl
@[simp] theorem State.setPort_streams (s : State) (p : PortId) (x : Port) : (s.setPort p x).streams = s.streams := rfl
@[simp] theorem State.setPort_rules (s : State) (p : PortId) (x : Port) : (s.setPort p x).rules = s.rules := rfl
@[simp] theorem State.setPort_map (s : State) (p : PortId) (x : Port) : (s.setPort p x).map = s.map := rfl
@[simp] theorem State.setPort_pool (s : State) (p : PortId) (x : Port) : (s.setPort p x).pool = s.pool := rfl
@[simp] theorem State.setPort_lanes (s : State) (p : PortId) (x : Port) : (s.setPort p x).lanes = s.lanes := rfl
@[simp] theorem State.setPort_trunk (s : State) (p : PortId) (x : Port) : (s.setPort p x).trunk = s.trunk := rfl
@[simp] theorem State.setPort_mu (s : State) (p : PortId) (x : Port) : (s.setPort p x).mu = s.mu := rfl
@[simp] theorem State.setPort_notices (s : State) (p : PortId) (x : Port) : (s.setPort p x).notices = s.notices := rfl
@[simp] theorem State.setPort_freeCount (s : State) (p : PortId) (x : Port) : (s.setPort p x).freeCount = s.freeCount := rfl
@[simp] theorem State.setPort_pending (s : State) (p : PortId) (x : Port) : (s.setPort p x).pending = s.pending := rfl

/-! ### State.countPort -/

@[simp] theorem State.countPort_resetN (s : State) (p : PortId) (f : PortCounters → PortCounters) : (s.countPort p f).resetN = s.resetN := rfl
@[simp] theorem State.countPort_lines (s : State) (p : PortId) (f : PortCounters → PortCounters) : (s.countPort p f).lines = s.lines := rfl
@[simp] theorem State.countPort_deviceTime (s : State) (p : PortId) (f : PortCounters → PortCounters) : (s.countPort p f).deviceTime = s.deviceTime := rfl
@[simp] theorem State.countPort_classifier (s : State) (p : PortId) (f : PortCounters → PortCounters) : (s.countPort p f).classifier = s.classifier := rfl
@[simp] theorem State.countPort_streams (s : State) (p : PortId) (f : PortCounters → PortCounters) : (s.countPort p f).streams = s.streams := rfl
@[simp] theorem State.countPort_rules (s : State) (p : PortId) (f : PortCounters → PortCounters) : (s.countPort p f).rules = s.rules := rfl
@[simp] theorem State.countPort_map (s : State) (p : PortId) (f : PortCounters → PortCounters) : (s.countPort p f).map = s.map := rfl
@[simp] theorem State.countPort_pool (s : State) (p : PortId) (f : PortCounters → PortCounters) : (s.countPort p f).pool = s.pool := rfl
@[simp] theorem State.countPort_lanes (s : State) (p : PortId) (f : PortCounters → PortCounters) : (s.countPort p f).lanes = s.lanes := rfl
@[simp] theorem State.countPort_trunk (s : State) (p : PortId) (f : PortCounters → PortCounters) : (s.countPort p f).trunk = s.trunk := rfl
@[simp] theorem State.countPort_mu (s : State) (p : PortId) (f : PortCounters → PortCounters) : (s.countPort p f).mu = s.mu := rfl
@[simp] theorem State.countPort_notices (s : State) (p : PortId) (f : PortCounters → PortCounters) : (s.countPort p f).notices = s.notices := rfl
@[simp] theorem State.countPort_freeCount (s : State) (p : PortId) (f : PortCounters → PortCounters) : (s.countPort p f).freeCount = s.freeCount := rfl
@[simp] theorem State.countPort_pending (s : State) (p : PortId) (f : PortCounters → PortCounters) : (s.countPort p f).pending = s.pending := rfl

/-! ### State.setLane -/

@[simp] theorem State.setLane_resetN (s : State) (l : LaneId) (x : Lane) : (s.setLane l x).resetN = s.resetN := rfl
@[simp] theorem State.setLane_lines (s : State) (l : LaneId) (x : Lane) : (s.setLane l x).lines = s.lines := rfl
@[simp] theorem State.setLane_deviceTime (s : State) (l : LaneId) (x : Lane) : (s.setLane l x).deviceTime = s.deviceTime := rfl
@[simp] theorem State.setLane_ports (s : State) (l : LaneId) (x : Lane) : (s.setLane l x).ports = s.ports := rfl
@[simp] theorem State.setLane_classifier (s : State) (l : LaneId) (x : Lane) : (s.setLane l x).classifier = s.classifier := rfl
@[simp] theorem State.setLane_streams (s : State) (l : LaneId) (x : Lane) : (s.setLane l x).streams = s.streams := rfl
@[simp] theorem State.setLane_rules (s : State) (l : LaneId) (x : Lane) : (s.setLane l x).rules = s.rules := rfl
@[simp] theorem State.setLane_map (s : State) (l : LaneId) (x : Lane) : (s.setLane l x).map = s.map := rfl
@[simp] theorem State.setLane_pool (s : State) (l : LaneId) (x : Lane) : (s.setLane l x).pool = s.pool := rfl
@[simp] theorem State.setLane_trunk (s : State) (l : LaneId) (x : Lane) : (s.setLane l x).trunk = s.trunk := rfl
@[simp] theorem State.setLane_mu (s : State) (l : LaneId) (x : Lane) : (s.setLane l x).mu = s.mu := rfl
@[simp] theorem State.setLane_notices (s : State) (l : LaneId) (x : Lane) : (s.setLane l x).notices = s.notices := rfl
@[simp] theorem State.setLane_freeCount (s : State) (l : LaneId) (x : Lane) : (s.setLane l x).freeCount = s.freeCount := rfl
@[simp] theorem State.setLane_pending (s : State) (l : LaneId) (x : Lane) : (s.setLane l x).pending = s.pending := rfl

/-! ### State.countAsm -/

@[simp] theorem State.countAsm_resetN (s : State) (l : LaneId) (f : AssemblyCounters → AssemblyCounters) : (s.countAsm l f).resetN = s.resetN := rfl
@[simp] theorem State.countAsm_lines (s : State) (l : LaneId) (f : AssemblyCounters → AssemblyCounters) : (s.countAsm l f).lines = s.lines := rfl
@[simp] theorem State.countAsm_deviceTime (s : State) (l : LaneId) (f : AssemblyCounters → AssemblyCounters) : (s.countAsm l f).deviceTime = s.deviceTime := rfl
@[simp] theorem State.countAsm_ports (s : State) (l : LaneId) (f : AssemblyCounters → AssemblyCounters) : (s.countAsm l f).ports = s.ports := rfl
@[simp] theorem State.countAsm_classifier (s : State) (l : LaneId) (f : AssemblyCounters → AssemblyCounters) : (s.countAsm l f).classifier = s.classifier := rfl
@[simp] theorem State.countAsm_streams (s : State) (l : LaneId) (f : AssemblyCounters → AssemblyCounters) : (s.countAsm l f).streams = s.streams := rfl
@[simp] theorem State.countAsm_rules (s : State) (l : LaneId) (f : AssemblyCounters → AssemblyCounters) : (s.countAsm l f).rules = s.rules := rfl
@[simp] theorem State.countAsm_map (s : State) (l : LaneId) (f : AssemblyCounters → AssemblyCounters) : (s.countAsm l f).map = s.map := rfl
@[simp] theorem State.countAsm_pool (s : State) (l : LaneId) (f : AssemblyCounters → AssemblyCounters) : (s.countAsm l f).pool = s.pool := rfl
@[simp] theorem State.countAsm_trunk (s : State) (l : LaneId) (f : AssemblyCounters → AssemblyCounters) : (s.countAsm l f).trunk = s.trunk := rfl
@[simp] theorem State.countAsm_mu (s : State) (l : LaneId) (f : AssemblyCounters → AssemblyCounters) : (s.countAsm l f).mu = s.mu := rfl
@[simp] theorem State.countAsm_notices (s : State) (l : LaneId) (f : AssemblyCounters → AssemblyCounters) : (s.countAsm l f).notices = s.notices := rfl
@[simp] theorem State.countAsm_freeCount (s : State) (l : LaneId) (f : AssemblyCounters → AssemblyCounters) : (s.countAsm l f).freeCount = s.freeCount := rfl
@[simp] theorem State.countAsm_pending (s : State) (l : LaneId) (f : AssemblyCounters → AssemblyCounters) : (s.countAsm l f).pending = s.pending := rfl

/-! ### State.countTrunk -/

@[simp] theorem State.countTrunk_resetN (s : State) (f : TrunkCounters → TrunkCounters) : (s.countTrunk f).resetN = s.resetN := rfl
@[simp] theorem State.countTrunk_lines (s : State) (f : TrunkCounters → TrunkCounters) : (s.countTrunk f).lines = s.lines := rfl
@[simp] theorem State.countTrunk_deviceTime (s : State) (f : TrunkCounters → TrunkCounters) : (s.countTrunk f).deviceTime = s.deviceTime := rfl
@[simp] theorem State.countTrunk_ports (s : State) (f : TrunkCounters → TrunkCounters) : (s.countTrunk f).ports = s.ports := rfl
@[simp] theorem State.countTrunk_classifier (s : State) (f : TrunkCounters → TrunkCounters) : (s.countTrunk f).classifier = s.classifier := rfl
@[simp] theorem State.countTrunk_streams (s : State) (f : TrunkCounters → TrunkCounters) : (s.countTrunk f).streams = s.streams := rfl
@[simp] theorem State.countTrunk_rules (s : State) (f : TrunkCounters → TrunkCounters) : (s.countTrunk f).rules = s.rules := rfl
@[simp] theorem State.countTrunk_map (s : State) (f : TrunkCounters → TrunkCounters) : (s.countTrunk f).map = s.map := rfl
@[simp] theorem State.countTrunk_pool (s : State) (f : TrunkCounters → TrunkCounters) : (s.countTrunk f).pool = s.pool := rfl
@[simp] theorem State.countTrunk_lanes (s : State) (f : TrunkCounters → TrunkCounters) : (s.countTrunk f).lanes = s.lanes := rfl
@[simp] theorem State.countTrunk_mu (s : State) (f : TrunkCounters → TrunkCounters) : (s.countTrunk f).mu = s.mu := rfl
@[simp] theorem State.countTrunk_notices (s : State) (f : TrunkCounters → TrunkCounters) : (s.countTrunk f).notices = s.notices := rfl
@[simp] theorem State.countTrunk_freeCount (s : State) (f : TrunkCounters → TrunkCounters) : (s.countTrunk f).freeCount = s.freeCount := rfl
@[simp] theorem State.countTrunk_pending (s : State) (f : TrunkCounters → TrunkCounters) : (s.countTrunk f).pending = s.pending := rfl

/-! ### State.raise -/

@[simp] theorem State.raise_resetN (s : State) (i : SourceNo) : (s.raise i).resetN = s.resetN := rfl
@[simp] theorem State.raise_lines (s : State) (i : SourceNo) : (s.raise i).lines = s.lines := rfl
@[simp] theorem State.raise_deviceTime (s : State) (i : SourceNo) : (s.raise i).deviceTime = s.deviceTime := rfl
@[simp] theorem State.raise_ports (s : State) (i : SourceNo) : (s.raise i).ports = s.ports := rfl
@[simp] theorem State.raise_classifier (s : State) (i : SourceNo) : (s.raise i).classifier = s.classifier := rfl
@[simp] theorem State.raise_streams (s : State) (i : SourceNo) : (s.raise i).streams = s.streams := rfl
@[simp] theorem State.raise_rules (s : State) (i : SourceNo) : (s.raise i).rules = s.rules := rfl
@[simp] theorem State.raise_map (s : State) (i : SourceNo) : (s.raise i).map = s.map := rfl
@[simp] theorem State.raise_pool (s : State) (i : SourceNo) : (s.raise i).pool = s.pool := rfl
@[simp] theorem State.raise_lanes (s : State) (i : SourceNo) : (s.raise i).lanes = s.lanes := rfl
@[simp] theorem State.raise_trunk (s : State) (i : SourceNo) : (s.raise i).trunk = s.trunk := rfl
@[simp] theorem State.raise_mu (s : State) (i : SourceNo) : (s.raise i).mu = s.mu := rfl
@[simp] theorem State.raise_freeCount (s : State) (i : SourceNo) : (s.raise i).freeCount = s.freeCount := rfl
@[simp] theorem State.raise_pending (s : State) (i : SourceNo) : (s.raise i).pending = s.pending := rfl

/-! ### State.notify -/

@[simp] theorem State.notify_resetN (s : State) (k : NoticeKind) (l : LaneId) : (s.notify k l).resetN = s.resetN := rfl
@[simp] theorem State.notify_lines (s : State) (k : NoticeKind) (l : LaneId) : (s.notify k l).lines = s.lines := rfl
@[simp] theorem State.notify_deviceTime (s : State) (k : NoticeKind) (l : LaneId) : (s.notify k l).deviceTime = s.deviceTime := rfl
@[simp] theorem State.notify_ports (s : State) (k : NoticeKind) (l : LaneId) : (s.notify k l).ports = s.ports := rfl
@[simp] theorem State.notify_classifier (s : State) (k : NoticeKind) (l : LaneId) : (s.notify k l).classifier = s.classifier := rfl
@[simp] theorem State.notify_streams (s : State) (k : NoticeKind) (l : LaneId) : (s.notify k l).streams = s.streams := rfl
@[simp] theorem State.notify_rules (s : State) (k : NoticeKind) (l : LaneId) : (s.notify k l).rules = s.rules := rfl
@[simp] theorem State.notify_map (s : State) (k : NoticeKind) (l : LaneId) : (s.notify k l).map = s.map := rfl
@[simp] theorem State.notify_pool (s : State) (k : NoticeKind) (l : LaneId) : (s.notify k l).pool = s.pool := rfl
@[simp] theorem State.notify_lanes (s : State) (k : NoticeKind) (l : LaneId) : (s.notify k l).lanes = s.lanes := rfl
@[simp] theorem State.notify_trunk (s : State) (k : NoticeKind) (l : LaneId) : (s.notify k l).trunk = s.trunk := rfl
@[simp] theorem State.notify_mu (s : State) (k : NoticeKind) (l : LaneId) : (s.notify k l).mu = s.mu := rfl
@[simp] theorem State.notify_freeCount (s : State) (k : NoticeKind) (l : LaneId) : (s.notify k l).freeCount = s.freeCount := rfl
@[simp] theorem State.notify_pending (s : State) (k : NoticeKind) (l : LaneId) : (s.notify k l).pending = s.pending := rfl

/-! ### State.finish -/

@[simp] theorem State.finish_resetN (s : State) (c : Command) (r : Status) (b : List Byte) : (s.finish c r b).resetN = s.resetN := rfl
@[simp] theorem State.finish_lines (s : State) (c : Command) (r : Status) (b : List Byte) : (s.finish c r b).lines = s.lines := rfl
@[simp] theorem State.finish_deviceTime (s : State) (c : Command) (r : Status) (b : List Byte) : (s.finish c r b).deviceTime = s.deviceTime := rfl
@[simp] theorem State.finish_ports (s : State) (c : Command) (r : Status) (b : List Byte) : (s.finish c r b).ports = s.ports := rfl
@[simp] theorem State.finish_classifier (s : State) (c : Command) (r : Status) (b : List Byte) : (s.finish c r b).classifier = s.classifier := rfl
@[simp] theorem State.finish_streams (s : State) (c : Command) (r : Status) (b : List Byte) : (s.finish c r b).streams = s.streams := rfl
@[simp] theorem State.finish_rules (s : State) (c : Command) (r : Status) (b : List Byte) : (s.finish c r b).rules = s.rules := rfl
@[simp] theorem State.finish_map (s : State) (c : Command) (r : Status) (b : List Byte) : (s.finish c r b).map = s.map := rfl
@[simp] theorem State.finish_pool (s : State) (c : Command) (r : Status) (b : List Byte) : (s.finish c r b).pool = s.pool := rfl
@[simp] theorem State.finish_lanes (s : State) (c : Command) (r : Status) (b : List Byte) : (s.finish c r b).lanes = s.lanes := rfl
@[simp] theorem State.finish_trunk (s : State) (c : Command) (r : Status) (b : List Byte) : (s.finish c r b).trunk = s.trunk := rfl
@[simp] theorem State.finish_notices (s : State) (c : Command) (r : Status) (b : List Byte) : (s.finish c r b).notices = s.notices := rfl
@[simp] theorem State.finish_freeCount (s : State) (c : Command) (r : Status) (b : List Byte) : (s.finish c r b).freeCount = s.freeCount := rfl
@[simp] theorem State.finish_pending (s : State) (c : Command) (r : Status) (b : List Byte) : (s.finish c r b).pending = s.pending := rfl

/-! ### State.setStage -/

@[simp] theorem State.setStage_resetN (s : State) (f : FrameInProgress) (g : Stage) : (s.setStage f g).resetN = s.resetN := rfl
@[simp] theorem State.setStage_lines (s : State) (f : FrameInProgress) (g : Stage) : (s.setStage f g).lines = s.lines := rfl
@[simp] theorem State.setStage_deviceTime (s : State) (f : FrameInProgress) (g : Stage) : (s.setStage f g).deviceTime = s.deviceTime := rfl
@[simp] theorem State.setStage_ports (s : State) (f : FrameInProgress) (g : Stage) : (s.setStage f g).ports = s.ports := rfl
@[simp] theorem State.setStage_streams (s : State) (f : FrameInProgress) (g : Stage) : (s.setStage f g).streams = s.streams := rfl
@[simp] theorem State.setStage_rules (s : State) (f : FrameInProgress) (g : Stage) : (s.setStage f g).rules = s.rules := rfl
@[simp] theorem State.setStage_map (s : State) (f : FrameInProgress) (g : Stage) : (s.setStage f g).map = s.map := rfl
@[simp] theorem State.setStage_pool (s : State) (f : FrameInProgress) (g : Stage) : (s.setStage f g).pool = s.pool := rfl
@[simp] theorem State.setStage_lanes (s : State) (f : FrameInProgress) (g : Stage) : (s.setStage f g).lanes = s.lanes := rfl
@[simp] theorem State.setStage_trunk (s : State) (f : FrameInProgress) (g : Stage) : (s.setStage f g).trunk = s.trunk := rfl
@[simp] theorem State.setStage_mu (s : State) (f : FrameInProgress) (g : Stage) : (s.setStage f g).mu = s.mu := rfl
@[simp] theorem State.setStage_notices (s : State) (f : FrameInProgress) (g : Stage) : (s.setStage f g).notices = s.notices := rfl
@[simp] theorem State.setStage_freeCount (s : State) (f : FrameInProgress) (g : Stage) : (s.setStage f g).freeCount = s.freeCount := rfl
@[simp] theorem State.setStage_pending (s : State) (f : FrameInProgress) (g : Stage) : (s.setStage f g).pending = s.pending := rfl

/-! ### State.beginRecord -/

@[simp] theorem State.beginRecord_resetN (s : State) (f : FrameInProgress) (i : Nat) : (s.beginRecord f i).resetN = s.resetN := rfl
@[simp] theorem State.beginRecord_lines (s : State) (f : FrameInProgress) (i : Nat) : (s.beginRecord f i).lines = s.lines := rfl
@[simp] theorem State.beginRecord_deviceTime (s : State) (f : FrameInProgress) (i : Nat) : (s.beginRecord f i).deviceTime = s.deviceTime := rfl
@[simp] theorem State.beginRecord_streams (s : State) (f : FrameInProgress) (i : Nat) : (s.beginRecord f i).streams = s.streams := rfl
@[simp] theorem State.beginRecord_rules (s : State) (f : FrameInProgress) (i : Nat) : (s.beginRecord f i).rules = s.rules := rfl
@[simp] theorem State.beginRecord_map (s : State) (f : FrameInProgress) (i : Nat) : (s.beginRecord f i).map = s.map := rfl
@[simp] theorem State.beginRecord_pool (s : State) (f : FrameInProgress) (i : Nat) : (s.beginRecord f i).pool = s.pool := rfl
@[simp] theorem State.beginRecord_lanes (s : State) (f : FrameInProgress) (i : Nat) : (s.beginRecord f i).lanes = s.lanes := rfl
@[simp] theorem State.beginRecord_trunk (s : State) (f : FrameInProgress) (i : Nat) : (s.beginRecord f i).trunk = s.trunk := rfl
@[simp] theorem State.beginRecord_mu (s : State) (f : FrameInProgress) (i : Nat) : (s.beginRecord f i).mu = s.mu := rfl
@[simp] theorem State.beginRecord_notices (s : State) (f : FrameInProgress) (i : Nat) : (s.beginRecord f i).notices = s.notices := rfl
@[simp] theorem State.beginRecord_freeCount (s : State) (f : FrameInProgress) (i : Nat) : (s.beginRecord f i).freeCount = s.freeCount := rfl
@[simp] theorem State.beginRecord_pending (s : State) (f : FrameInProgress) (i : Nat) : (s.beginRecord f i).pending = s.pending := rfl

/-! ### State.endCommand -/

@[simp] theorem State.endCommand_resetN (s : State) (c : Command) (r : Response) : (s.endCommand c r).resetN = s.resetN := rfl
@[simp] theorem State.endCommand_lines (s : State) (c : Command) (r : Response) : (s.endCommand c r).lines = s.lines := rfl
@[simp] theorem State.endCommand_deviceTime (s : State) (c : Command) (r : Response) : (s.endCommand c r).deviceTime = s.deviceTime := rfl
@[simp] theorem State.endCommand_ports (s : State) (c : Command) (r : Response) : (s.endCommand c r).ports = s.ports := rfl
@[simp] theorem State.endCommand_classifier (s : State) (c : Command) (r : Response) : (s.endCommand c r).classifier = s.classifier := rfl
@[simp] theorem State.endCommand_streams (s : State) (c : Command) (r : Response) : (s.endCommand c r).streams = s.streams := rfl
@[simp] theorem State.endCommand_rules (s : State) (c : Command) (r : Response) : (s.endCommand c r).rules = s.rules := rfl
@[simp] theorem State.endCommand_map (s : State) (c : Command) (r : Response) : (s.endCommand c r).map = s.map := rfl
@[simp] theorem State.endCommand_pool (s : State) (c : Command) (r : Response) : (s.endCommand c r).pool = s.pool := rfl
@[simp] theorem State.endCommand_lanes (s : State) (c : Command) (r : Response) : (s.endCommand c r).lanes = s.lanes := rfl
@[simp] theorem State.endCommand_notices (s : State) (c : Command) (r : Response) : (s.endCommand c r).notices = s.notices := rfl
@[simp] theorem State.endCommand_freeCount (s : State) (c : Command) (r : Response) : (s.endCommand c r).freeCount = s.freeCount := rfl
@[simp] theorem State.endCommand_pending (s : State) (c : Command) (r : Response) : (s.endCommand c r).pending = s.pending := rfl

/-! ### State.startBundle -/

@[simp] theorem State.startBundle_resetN (s : State) (l : LaneId) (q : SeqNo) (b : Bundle) : (s.startBundle l q b).resetN = s.resetN := rfl
@[simp] theorem State.startBundle_lines (s : State) (l : LaneId) (q : SeqNo) (b : Bundle) : (s.startBundle l q b).lines = s.lines := rfl
@[simp] theorem State.startBundle_deviceTime (s : State) (l : LaneId) (q : SeqNo) (b : Bundle) : (s.startBundle l q b).deviceTime = s.deviceTime := rfl
@[simp] theorem State.startBundle_ports (s : State) (l : LaneId) (q : SeqNo) (b : Bundle) : (s.startBundle l q b).ports = s.ports := rfl
@[simp] theorem State.startBundle_classifier (s : State) (l : LaneId) (q : SeqNo) (b : Bundle) : (s.startBundle l q b).classifier = s.classifier := rfl
@[simp] theorem State.startBundle_streams (s : State) (l : LaneId) (q : SeqNo) (b : Bundle) : (s.startBundle l q b).streams = s.streams := rfl
@[simp] theorem State.startBundle_rules (s : State) (l : LaneId) (q : SeqNo) (b : Bundle) : (s.startBundle l q b).rules = s.rules := rfl
@[simp] theorem State.startBundle_map (s : State) (l : LaneId) (q : SeqNo) (b : Bundle) : (s.startBundle l q b).map = s.map := rfl
@[simp] theorem State.startBundle_pool (s : State) (l : LaneId) (q : SeqNo) (b : Bundle) : (s.startBundle l q b).pool = s.pool := rfl
@[simp] theorem State.startBundle_lanes (s : State) (l : LaneId) (q : SeqNo) (b : Bundle) : (s.startBundle l q b).lanes = s.lanes := rfl
@[simp] theorem State.startBundle_mu (s : State) (l : LaneId) (q : SeqNo) (b : Bundle) : (s.startBundle l q b).mu = s.mu := rfl
@[simp] theorem State.startBundle_notices (s : State) (l : LaneId) (q : SeqNo) (b : Bundle) : (s.startBundle l q b).notices = s.notices := rfl
@[simp] theorem State.startBundle_freeCount (s : State) (l : LaneId) (q : SeqNo) (b : Bundle) : (s.startBundle l q b).freeCount = s.freeCount := rfl
@[simp] theorem State.startBundle_pending (s : State) (l : LaneId) (q : SeqNo) (b : Bundle) : (s.startBundle l q b).pending = s.pending := rfl

/-! ### State.assertHold -/

@[simp] theorem State.assertHold_resetN (s : State) : (s.assertHold).resetN = s.resetN := rfl
@[simp] theorem State.assertHold_lines (s : State) : (s.assertHold).lines = s.lines := rfl
@[simp] theorem State.assertHold_deviceTime (s : State) : (s.assertHold).deviceTime = s.deviceTime := rfl
@[simp] theorem State.assertHold_ports (s : State) : (s.assertHold).ports = s.ports := rfl
@[simp] theorem State.assertHold_classifier (s : State) : (s.assertHold).classifier = s.classifier := rfl
@[simp] theorem State.assertHold_streams (s : State) : (s.assertHold).streams = s.streams := rfl
@[simp] theorem State.assertHold_rules (s : State) : (s.assertHold).rules = s.rules := rfl
@[simp] theorem State.assertHold_map (s : State) : (s.assertHold).map = s.map := rfl
@[simp] theorem State.assertHold_lanes (s : State) : (s.assertHold).lanes = s.lanes := rfl
@[simp] theorem State.assertHold_trunk (s : State) : (s.assertHold).trunk = s.trunk := rfl
@[simp] theorem State.assertHold_mu (s : State) : (s.assertHold).mu = s.mu := rfl
@[simp] theorem State.assertHold_freeCount (s : State) : (s.assertHold).freeCount = s.freeCount := rfl
@[simp] theorem State.assertHold_pending (s : State) : (s.assertHold).pending = s.pending := rfl

/-! ### State.refuseUpdate -/

@[simp] theorem State.refuseUpdate_resetN (s : State) : (s.refuseUpdate).resetN = s.resetN := rfl
@[simp] theorem State.refuseUpdate_lines (s : State) : (s.refuseUpdate).lines = s.lines := rfl
@[simp] theorem State.refuseUpdate_deviceTime (s : State) : (s.refuseUpdate).deviceTime = s.deviceTime := rfl
@[simp] theorem State.refuseUpdate_ports (s : State) : (s.refuseUpdate).ports = s.ports := rfl
@[simp] theorem State.refuseUpdate_classifier (s : State) : (s.refuseUpdate).classifier = s.classifier := rfl
@[simp] theorem State.refuseUpdate_streams (s : State) : (s.refuseUpdate).streams = s.streams := rfl
@[simp] theorem State.refuseUpdate_rules (s : State) : (s.refuseUpdate).rules = s.rules := rfl
@[simp] theorem State.refuseUpdate_map (s : State) : (s.refuseUpdate).map = s.map := rfl
@[simp] theorem State.refuseUpdate_pool (s : State) : (s.refuseUpdate).pool = s.pool := rfl
@[simp] theorem State.refuseUpdate_lanes (s : State) : (s.refuseUpdate).lanes = s.lanes := rfl
@[simp] theorem State.refuseUpdate_mu (s : State) : (s.refuseUpdate).mu = s.mu := rfl
@[simp] theorem State.refuseUpdate_freeCount (s : State) : (s.refuseUpdate).freeCount = s.freeCount := rfl
@[simp] theorem State.refuseUpdate_pending (s : State) : (s.refuseUpdate).pending = s.pending := rfl

/-! ### Reads after writes -/

@[simp] theorem State.port_setPort (s : State) (p : PortId) (x : Port) : (s.setPort p x).port p = x := by
  simp [State.port, State.setPort]

theorem State.port_setPort_ne (s : State) {p q : PortId} (x : Port) (h : q ≠ p) : (s.setPort p x).port q = s.port q := by
  have : p.val ≠ q.val := fun e => h (Fin.ext e.symm)
  simp [State.port, State.setPort, this]

theorem State.port_setPort_eq (s : State) (p q : PortId) (x : Port) :
    (s.setPort p x).port q = if q = p then x else s.port q := by
  by_cases h : q = p
  · subst h; simp
  · simp [State.port_setPort_ne s x h, h]

@[simp] theorem State.lane_setLane (s : State) (l : LaneId) (x : Lane) : (s.setLane l x).lane l = x := by
  simp [State.lane, State.setLane]

theorem State.lane_setLane_ne (s : State) {l k : LaneId} (x : Lane) (h : k ≠ l) : (s.setLane l x).lane k = s.lane k := by
  have : l.val ≠ k.val := fun e => h (Fin.ext e.symm)
  simp [State.lane, State.setLane, this]

theorem State.lane_setLane_eq (s : State) (l k : LaneId) (x : Lane) :
    (s.setLane l x).lane k = if k = l then x else s.lane k := by
  by_cases h : k = l
  · subst h; simp
  · simp [State.lane_setLane_ne s x h, h]

@[simp] theorem State.setPort_setPort (s : State) (p : PortId) (x y : Port) : (s.setPort p x).setPort p y = s.setPort p y := by
  simp [State.setPort]

@[simp] theorem State.setLane_setLane (s : State) (l : LaneId) (x y : Lane) : (s.setLane l x).setLane l y = s.setLane l y := by
  simp [State.setLane]

@[simp] theorem State.setLane_lane (s : State) (l : LaneId) : s.setLane l (s.lane l) = s := by
  simp [State.setLane, State.lane]

@[simp] theorem State.setPort_port (s : State) (p : PortId) : s.setPort p (s.port p) = s := by
  simp [State.setPort, State.port]

@[simp] theorem StreamTable.slot_setSlot (t : StreamTable) (n : StreamNo) (x : Slot) : (t.setSlot n x).slot n = x := by
  simp [StreamTable.slot, StreamTable.setSlot]

theorem StreamTable.slot_setSlot_ne (t : StreamTable) {n m : StreamNo} (x : Slot) (h : m ≠ n) : (t.setSlot n x).slot m = t.slot m := by
  have : n.val ≠ m.val := fun e => h (Fin.ext e.symm)
  simp [StreamTable.slot, StreamTable.setSlot, this]

theorem StreamTable.slot_setSlot_eq (t : StreamTable) (n m : StreamNo) (x : Slot) :
    (t.setSlot n x).slot m = if m = n then x else t.slot m := by
  by_cases h : m = n
  · subst h; simp
  · simp [StreamTable.slot_setSlot_ne t x h, h]

@[simp] theorem NoticeUnit.source_setSource (u : NoticeUnit) (i : SourceNo) (x : Source) : (u.setSource i x).source i = x := by
  simp [NoticeUnit.source, NoticeUnit.setSource]

theorem NoticeUnit.source_setSource_ne (u : NoticeUnit) {i j : SourceNo} (x : Source) (h : j ≠ i) :
    (u.setSource i x).source j = u.source j := by
  have : i.val ≠ j.val := fun e => h (Fin.ext e.symm)
  simp [NoticeUnit.source, NoticeUnit.setSource, this]

theorem NoticeUnit.source_setSource_eq (u : NoticeUnit) (i j : SourceNo) (x : Source) :
    (u.setSource i x).source j = if j = i then x else u.source j := by
  by_cases h : j = i
  · subst h; simp
  · simp [NoticeUnit.source_setSource_ne u x h, h]

@[simp] theorem NoticeUnit.setSource_queue (u : NoticeUnit) (i : SourceNo) (x : Source) : (u.setSource i x).queue = u.queue := rfl

/-! ### Reads of one bank after a write of another -/

@[simp] theorem State.setPort_lane (s : State) (p : PortId) (x : Port) (l' : LaneId) : (s.setPort p x).lane l' = s.lane l' := rfl
@[simp] theorem State.countPort_lane (s : State) (p : PortId) (f : PortCounters → PortCounters) (l' : LaneId) : (s.countPort p f).lane l' = s.lane l' := rfl
@[simp] theorem State.setLane_port (s : State) (l : LaneId) (x : Lane) (p' : PortId) : (s.setLane l x).port p' = s.port p' := rfl
@[simp] theorem State.countAsm_port (s : State) (l : LaneId) (f : AssemblyCounters → AssemblyCounters) (p' : PortId) : (s.countAsm l f).port p' = s.port p' := rfl
@[simp] theorem State.countTrunk_port (s : State) (f : TrunkCounters → TrunkCounters) (p' : PortId) : (s.countTrunk f).port p' = s.port p' := rfl
@[simp] theorem State.countTrunk_lane (s : State) (f : TrunkCounters → TrunkCounters) (l' : LaneId) : (s.countTrunk f).lane l' = s.lane l' := rfl
@[simp] theorem State.raise_port (s : State) (i : SourceNo) (p' : PortId) : (s.raise i).port p' = s.port p' := rfl
@[simp] theorem State.raise_lane (s : State) (i : SourceNo) (l' : LaneId) : (s.raise i).lane l' = s.lane l' := rfl
@[simp] theorem State.notify_port (s : State) (k : NoticeKind) (l : LaneId) (p' : PortId) : (s.notify k l).port p' = s.port p' := rfl
@[simp] theorem State.notify_lane (s : State) (k : NoticeKind) (l : LaneId) (l' : LaneId) : (s.notify k l).lane l' = s.lane l' := rfl
@[simp] theorem State.finish_port (s : State) (c : Command) (r : Status) (b : List Byte) (p' : PortId) : (s.finish c r b).port p' = s.port p' := rfl
@[simp] theorem State.finish_lane (s : State) (c : Command) (r : Status) (b : List Byte) (l' : LaneId) : (s.finish c r b).lane l' = s.lane l' := rfl
@[simp] theorem State.setStage_port (s : State) (f : FrameInProgress) (g : Stage) (p' : PortId) : (s.setStage f g).port p' = s.port p' := rfl
@[simp] theorem State.setStage_lane (s : State) (f : FrameInProgress) (g : Stage) (l' : LaneId) : (s.setStage f g).lane l' = s.lane l' := rfl
@[simp] theorem State.beginRecord_lane (s : State) (f : FrameInProgress) (i : Nat) (l' : LaneId) : (s.beginRecord f i).lane l' = s.lane l' := rfl
@[simp] theorem State.endCommand_port (s : State) (c : Command) (r : Response) (p' : PortId) : (s.endCommand c r).port p' = s.port p' := rfl
@[simp] theorem State.endCommand_lane (s : State) (c : Command) (r : Response) (l' : LaneId) : (s.endCommand c r).lane l' = s.lane l' := rfl
@[simp] theorem State.startBundle_port (s : State) (l : LaneId) (q : SeqNo) (b : Bundle) (p' : PortId) : (s.startBundle l q b).port p' = s.port p' := rfl
@[simp] theorem State.startBundle_lane (s : State) (l : LaneId) (q : SeqNo) (b : Bundle) (l' : LaneId) : (s.startBundle l q b).lane l' = s.lane l' := rfl
@[simp] theorem State.assertHold_port (s : State) (p' : PortId) : (s.assertHold).port p' = s.port p' := rfl
@[simp] theorem State.assertHold_lane (s : State) (l' : LaneId) : (s.assertHold).lane l' = s.lane l' := rfl
@[simp] theorem State.refuseUpdate_port (s : State) (p' : PortId) : (s.refuseUpdate).port p' = s.port p' := rfl
@[simp] theorem State.refuseUpdate_lane (s : State) (l' : LaneId) : (s.refuseUpdate).lane l' = s.lane l' := rfl

end Sys2Proof.Machine
end

