-- ==== Sys2Proof/Laws/Frame.lean ====
section
/-! SUPPORT. For each shared operation over State, one lemma that says which blocks it can change: every other field is as before. -/

namespace Sys2Proof.Machine

/-! ## Pool, notices -/

theorem State.raise_frame (s : State) (i : SourceNo) : s.raise i = { s with notices := (s.raise i).notices } := rfl

theorem State.notify_frame (s : State) (k : NoticeKind) (l : LaneId) : s.notify k l = { s with notices := (s.notify k l).notices } := rfl

theorem State.freeCells_frame (s : State) (n : Nat) : s.freeCells n = { s with pool := (s.freeCells n).pool } := by
  unfold State.freeCells; split <;> rfl

theorem State.allocate_frame (s s' : State) (n : Nat) (h : s.allocate n = some s') :
    s' = { s with pool := s'.pool, notices := s'.notices } := by
  unfold State.allocate at h
  split at h
  · cases h; rfl
  · split at h
    · cases h
    · dsimp only at h
      split at h <;> (cases h; rfl)

/-! ## Lanes -/

theorem State.answerLaneFull_frame (s : State) (l : LaneId) :
    (s.answerLaneFull l).1 = { s with lanes := (s.answerLaneFull l).1.lanes, notices := (s.answerLaneFull l).1.notices } := rfl

theorem State.placeInto_frame (s : State) (l : LaneId) (b : Bundle) (q : PlacementRequest) :
    (s.placeInto l b q).1 = { s with
      lanes := (s.placeInto l b q).1.lanes, pool := (s.placeInto l b q).1.pool, notices := (s.placeInto l b q).1.notices } := by
  unfold State.placeInto
  dsimp only
  split
  · rfl
  · rename_i h
    have := State.allocate_frame _ _ _ h
    rw [this]
    rfl

theorem State.place_frame (s : State) (l : LaneId) (q : PlacementRequest) :
    (s.place l q).1 = { s with
      lanes := (s.place l q).1.lanes, pool := (s.place l q).1.pool, notices := (s.place l q).1.notices } := by
  have key : ∀ s' : State, s' = { s with lanes := s'.lanes } →
      ∀ x : State, x = { s' with lanes := x.lanes, pool := x.pool, notices := x.notices } →
      x = { s with lanes := x.lanes, pool := x.pool, notices := x.notices } := by
    intro s' h x hx
    rw [h] at hx
    exact hx
  unfold State.place
  dsimp only
  split
  · rfl
  · rfl
  all_goals
    split
    · rfl
    · split
      · exact key _ rfl _ (State.placeInto_frame _ _ _ _)
      · rfl

theorem State.discard_frame (l : LaneId) (s : State) (b : Bundle) :
    s.discard l b = { s with pool := (s.discard l b).pool, trunk := (s.discard l b).trunk } := by
  unfold State.discard
  split
  · split
    · rfl
    · unfold State.freeCells; split <;> rfl
  · unfold State.freeCells; split <;> rfl

theorem State.discards_frame (l : LaneId) (bs : List Bundle) (s : State) :
    bs.foldl (State.discard l) s =
      { s with pool := (bs.foldl (State.discard l) s).pool, trunk := (bs.foldl (State.discard l) s).trunk } := by
  induction bs generalizing s with
  | nil => rfl
  | cons b bs ih =>
    have h := ih (s.discard l b)
    have h' := State.discard_frame l s b
    simp only [List.foldl_cons]
    generalize bs.foldl (State.discard l) (s.discard l b) = t at h ⊢
    rw [h'] at h
    exact h

theorem State.disableLane_frame (s : State) (l : LaneId) :
    s.disableLane l = { s with
      lanes := (s.disableLane l).lanes, pool := (s.disableLane l).pool, trunk := (s.disableLane l).trunk } := by
  have h := State.discards_frame l (s.lane l).bundles s
  unfold State.disableLane
  dsimp only
  generalize (s.lane l).bundles.foldl (State.discard l) s = t at h ⊢
  rw [h]
  rfl

theorem State.drainCheck_frame (s : State) (l : LaneId) :
    s.drainCheck l = { s with
      lanes := (s.drainCheck l).lanes, pool := (s.drainCheck l).pool, trunk := (s.drainCheck l).trunk
      notices := (s.drainCheck l).notices } := by
  have h := State.disableLane_frame s l
  unfold State.drainCheck
  split
  · generalize s.disableLane l = t at h ⊢
    rw [h]
    rfl
  · rfl

theorem State.applyAck_frame (s : State) (l : LaneId) (ack : SeqNo) :
    s.applyAck l ack = { s with
      lanes := (s.applyAck l ack).lanes, pool := (s.applyAck l ack).pool, trunk := (s.applyAck l ack).trunk } := by
  have h := State.discards_frame l ((s.lane l).ldu.retention.take (distance (s.lane l).ldu.a ack)) s
  unfold State.applyAck
  dsimp only
  split
  · rfl
  · generalize ((s.lane l).ldu.retention.take (distance (s.lane l).ldu.a ack)).foldl (State.discard l) s = t at h ⊢
    rw [h]
    rfl

theorem State.applyGrant_frame (s : State) (l : LaneId) (g : SeqNo) :
    s.applyGrant l g = { s with lanes := (s.applyGrant l g).lanes, trunk := (s.applyGrant l g).trunk } := by
  unfold State.applyGrant
  dsimp only
  split <;> rfl

theorem State.applyResend_frame (s : State) (l : LaneId) (x : Option SeqNo) :
    s.applyResend l x = { s with lanes := (s.applyResend l x).lanes } := by
  unfold State.applyResend
  split
  · split <;> rfl
  · rfl

theorem State.applyUpdate_frame (s : State) (u : LaneUpdate) :
    s.applyUpdate u = { s with
      lanes := (s.applyUpdate u).lanes, pool := (s.applyUpdate u).pool, trunk := (s.applyUpdate u).trunk
      notices := (s.applyUpdate u).notices } := by
  unfold State.applyUpdate
  dsimp only
  split
  · rfl
  · have h1 := State.applyAck_frame s u.lane u.ack
    generalize hs1 : s.applyAck u.lane u.ack = s1 at h1 ⊢
    have h2 := State.applyGrant_frame s1 u.lane u.grant
    generalize hs2 : s1.applyGrant u.lane u.grant = s2 at h2 ⊢
    have h3 := State.applyResend_frame s2 u.lane u.resendFrom
    generalize hs3 : s2.applyResend u.lane u.resendFrom = s3 at h3 ⊢
    have key : ∀ s4 : State, s4 = { s3 with trunk := s4.trunk, notices := s4.notices } →
        s4.drainCheck u.lane = { s with
          lanes := (s4.drainCheck u.lane).lanes, pool := (s4.drainCheck u.lane).pool, trunk := (s4.drainCheck u.lane).trunk
          notices := (s4.drainCheck u.lane).notices } := by
      intro s4 h4
      have h5 := State.drainCheck_frame s4 u.lane
      generalize s4.drainCheck u.lane = t at h5 ⊢
      rw [h4, h3, h2, h1] at h5
      exact h5
    split
    · exact key _ rfl
    · exact key _ rfl

/-! ## Trunk and Management Unit -/

theorem State.startResponse_frame (s : State) (r : Response) (rest : List Response) :
    s.startResponse r rest = { s with trunk := (s.startResponse r rest).trunk, mu := (s.startResponse r rest).mu } := by
  unfold State.startResponse
  dsimp only
  split
  · rfl
  · split <;> rfl

theorem State.arbitrate_frame (s : State) : s.arbitrate = { s with trunk := s.arbitrate.trunk, mu := s.arbitrate.mu } := by
  unfold State.arbitrate
  split
  · split
    · exact State.startResponse_frame _ _ _
    · split
      · rfl
      · split
        · rfl
        · split <;> rfl
  · rfl

theorem State.sendStartAt_frame (s t : State) (l : LaneId) (h : s.sendStartAt l = some t) :
    t = { s with lanes := t.lanes, trunk := t.trunk } := by
  unfold State.sendStartAt at h
  dsimp only at h
  split at h
  · cases h
  · split at h
    · split at h
      · cases h; rfl
      · cases h
    · split at h
      · split at h
        · cases h; rfl
        · cases h
      · cases h

theorem State.clearWire_frame (s : State) : s.clearWire = { s with trunk := s.clearWire.trunk, pool := s.clearWire.pool } := by
  unfold State.clearWire
  dsimp only
  split
  · unfold State.freeCells; split <;> rfl
  · rfl

theorem State.clearWire_trunk (s : State) : s.clearWire.trunk = { s.trunk with outbound := none } := by
  unfold State.clearWire
  dsimp only
  split
  · unfold State.freeCells; split <;> rfl
  · rfl

theorem State.cutFrame_frame (s : State) : s.cutFrame = { s with lanes := s.cutFrame.lanes, trunk := s.cutFrame.trunk } := by
  unfold State.cutFrame
  split <;> rfl

/-! ## Classifier -/

theorem State.endFrame_frame (s : State) (f : FrameInProgress) :
    s.endFrame f = { s with
      ports := (s.endFrame f).ports, classifier := (s.endFrame f).classifier, mu := (s.endFrame f).mu } := by
  unfold State.endFrame
  dsimp only
  split <;> rfl

theorem State.recordEnds_frame (s : State) (f : FrameInProgress) :
    s.recordEnds f = { s with
      ports := (s.recordEnds f).ports, classifier := (s.recordEnds f).classifier, mu := (s.recordEnds f).mu } := by
  unfold State.recordEnds
  split
  · exact State.endFrame_frame s f
  · rfl

theorem State.routeEnds_frame (s : State) (f : FrameInProgress) (route : Route) (o : UpdateOutcome) :
    s.routeEnds f route o = { s with
      ports := (s.routeEnds f route o).ports, classifier := (s.routeEnds f route o).classifier, mu := (s.routeEnds f route o).mu } := by
  unfold State.routeEnds
  split
  · rfl
  · exact State.recordEnds_frame s f

theorem State.judgeHit_frame (s : State) (f : FrameInProgress) (snap : Snapshot) (r : FieldRecord) :
    s.judgeHit f snap r = { s with classifier := (s.judgeHit f snap r).classifier } := by
  unfold State.judgeHit
  split
  · rfl
  · rfl
  · dsimp only; split <;> rfl

theorem State.dispatch_frame (s : State) (x : InboundContent) :
    s.dispatch x = { s with trunk := (s.dispatch x).trunk, notices := (s.dispatch x).notices } := by
  have h1 : ∀ (t : State) (u : RawUpdate), t.dispatchUpdate u =
      { t with trunk := (t.dispatchUpdate u).trunk, notices := (t.dispatchUpdate u).notices } := by
    intro t u
    unfold State.dispatchUpdate
    split <;> rfl
  have h2 : ∀ (us : List RawUpdate) (t : State), us.foldl State.dispatchUpdate t =
      { t with trunk := (us.foldl State.dispatchUpdate t).trunk, notices := (us.foldl State.dispatchUpdate t).notices } := by
    intro us
    induction us with
    | nil => intro t; rfl
    | cons u us ih =>
      intro t
      have h := ih (t.dispatchUpdate u)
      have h' := h1 t u
      simp only [List.foldl_cons]
      generalize us.foldl State.dispatchUpdate (t.dispatchUpdate u) = x at h ⊢
      rw [h'] at h
      exact h
  unfold State.dispatch
  split
  · exact h2 _ _
  · rfl

/-! ## What the dispatch hands on (R155) -/

/-- The oldest arrival passes the updates handed on before it. -/
theorem firstArrival_updates (before : List LaneUpdate) (c : Command) (after : List Handover) :
    firstArrival (before.map Handover.update ++ .arrival c :: after) = some (c, before.map Handover.update ++ after) := by
  induction before with
  | nil => rfl
  | cons u us ih =>
    show (firstArrival (us.map Handover.update ++ .arrival c :: after)).map _ = _
    rw [ih]
    rfl

theorem firstArrival_none {handed : List Handover} (h : ∀ c, Handover.arrival c ∉ handed) : firstArrival handed = none := by
  induction handed with
  | nil => rfl
  | cons x rest ih =>
    cases x with
    | arrival c => exact absurd List.mem_cons_self (h c)
    | update u =>
      show (firstArrival rest).map _ = none
      rw [ih fun c hc => h c (List.mem_cons_of_mem _ hc)]
      rfl

/-! ## READ_COUNTERS at its owners (R197) -/

theorem State.clearOwner_frame (s : State) (o : CounterOwner) :
    s.clearOwner o = { s with
      ports := (s.clearOwner o).ports, classifier := (s.clearOwner o).classifier, streams := (s.clearOwner o).streams
      pool := (s.clearOwner o).pool, lanes := (s.clearOwner o).lanes, trunk := (s.clearOwner o).trunk, mu := (s.clearOwner o).mu
      notices := (s.clearOwner o).notices } := by
  cases o <;> rfl

/-- The event at an owner (R197): the counters of the owner may be cleared, and the command in execution goes on to the owners left or has its response ready. -/
theorem State.readOwner_cons (s : State) (c : Command) (clear : Bool) (o : CounterOwner) (left : List CounterOwner)
    (result : List Byte) :
    s.readOwner c clear (o :: left) result = { (if clear then s.clearOwner o else s) with mu := {
      (if clear then s.clearOwner o else s).mu with
      executing := some ⟨c, if left = [] then .done (c.respond .ok (result ++ encCounters (s.ownerCounters o)))
        else .reading clear left (result ++ encCounters (s.ownerCounters o))⟩ } } := by
  cases left <;> rfl

/-! ## Running -/

theorem running_keeps {P : State → Prop} {f : State → State} {s t : State} (h : running f s = .next t) (hs : P s) (hf : P (f s)) :
    P t := by
  unfold running at h
  cases h
  split
  · exact hf
  · exact hs

theorem onPort_keeps {P : State → Prop} {p : Nat} {f : PortId → State → State} {s t : State} (h : onPort p f s = .next t)
    (hs : P s) (hf : ∀ q, P (f q s)) : P t := by
  unfold onPort at h
  split at h
  · exact running_keeps h hs (hf _)
  · cases h

theorem onLane_keeps {P : State → Prop} {l : Nat} {f : LaneId → State → State} {s t : State} (h : onLane l f s = .next t)
    (hs : P s) (hf : ∀ k, P (f k s)) : P t := by
  unfold onLane at h
  split at h
  · exact running_keeps h hs (hf _)
  · cases h

/-! ## The beginning of a command -/

theorem State.beginCommand_eq (s s' : State) (mine : Byte → Bool) (c : Command) (h : s.beginCommand mine = some (c, s')) :
    s.mu.executing = none ∧ mine c.code = true ∧ ∃ rest, s.mu.queue = c :: rest ∧ s' = { s with mu := { s.mu with queue := rest } } := by
  unfold State.beginCommand at h
  split at h
  · split at h
    · rename_i he hq hm
      cases h
      exact ⟨he, hm, _, hq, rfl⟩
    · cases h
  · cases h

/-- The cases of a command's beginning, once for all 22 commands: it does not begin, it is refused, or its effect is taken. -/
theorem State.runCommand_cases {α : Type} (s : State) (code : Byte) (parse : List Byte → Option α) (need : α → SessionNeed)
    (effect : State → Command → α → State) (P : State → Prop) (keep : P s)
    (refuse : ∀ c rest st, s.mu.executing = none → s.mu.queue = c :: rest →
      P (({ s with mu := { s.mu with queue := rest } } : State).finish c st []))
    (act : ∀ c rest a, s.mu.executing = none → s.mu.queue = c :: rest → c.code = code → parse c.params = some a →
      sessionCheck (need a) c.epoch s.mu.epoch = none → P (effect { s with mu := { s.mu with queue := rest } } c a)) :
    P (s.runCommand code parse need effect) := by
  unfold State.runCommand
  split
  · exact keep
  · rename_i c s' hb
    obtain ⟨he, hm, rest, hq, rfl⟩ := State.beginCommand_eq _ _ _ _ hb
    split
    · exact refuse c rest _ he hq
    · rename_i a ha
      split
      · exact refuse c rest _ he hq
      · rename_i hs
        exact act c rest a he hq (by simpa using hm) ha hs

end Sys2Proof.Machine
end

