-- ==== Sys2Proof/Laws/Sequence.lean ====
section
/-! SUPPORT. Arithmetic of modular distances (R1) and of saturating counters (R2). -/

namespace Sys2Proof.Machine

@[simp] theorem distance_self {n : Nat} (a : BitVec n) : distance a a = 0 := by simp [distance]

theorem distance_lt (a b : BitVec 16) : distance a b < 65536 := (b - a).isLt

theorem distance_eq (a b : BitVec 16) : distance a b = (65536 - a.toNat + b.toNat) % 65536 := by
  simp [distance, BitVec.toNat_sub]

theorem distance_eq_zero {a b : BitVec 16} (h : distance a b = 0) : b = a := by
  rw [distance_eq] at h
  apply BitVec.eq_of_toNat_eq
  have := a.isLt; have := b.isLt
  omega

theorem distance_pos {a b : BitVec 16} (h : b ≠ a) : 0 < distance a b := by
  rcases Nat.eq_zero_or_pos (distance a b) with h0 | h0
  · exact absurd (distance_eq_zero h0) h
  · exact h0

/-- The distance to the next sequence. -/
theorem distance_succ (a b : BitVec 16) (h : distance a b < 65535) : distance a (b + 1) = distance a b + 1 := by
  rw [distance_eq] at h ⊢
  rw [distance_eq]
  have := a.isLt; have := b.isLt
  have hb : (b + 1).toNat = (b.toNat + 1) % 65536 := by simp [BitVec.toNat_add]
  rw [hb]
  omega

/-- The distance from the next sequence. -/
theorem distance_from_succ (a b : BitVec 16) (h : 0 < distance a b) : distance (a + 1) b = distance a b - 1 := by
  rw [distance_eq] at h ⊢
  rw [distance_eq]
  have := a.isLt; have := b.isLt
  have hb : (a + 1).toNat = (a.toNat + 1) % 65536 := by simp [BitVec.toNat_add]
  rw [hb]
  omega

/-- Distances add up along a run that does not pass its end. -/
theorem distance_split {a b c : BitVec 16} (h : distance a b ≤ distance a c) : distance b c = distance a c - distance a b := by
  simp only [distance_eq] at *
  have := a.isLt; have := b.isLt; have := c.isLt
  omega

theorem distance_le_of_split {a b c : BitVec 16} (h : distance a b + distance b c < 65536) :
    distance a c = distance a b + distance b c := by
  simp only [distance_eq] at *
  have := a.isLt; have := b.isLt; have := c.isLt
  omega

theorem distance_add (a : BitVec 16) (k : Nat) (h : k < 65536) : distance a (a + BitVec.ofNat 16 k) = k := by
  rw [distance_eq]
  have := a.isLt
  have hb : (a + BitVec.ofNat 16 k).toNat = (a.toNat + k) % 65536 := by simp [BitVec.toNat_add]
  rw [hb]
  omega

theorem add_distance (a b : BitVec 16) : a + BitVec.ofNat 16 (distance a b) = b := by
  apply BitVec.eq_of_toNat_eq
  have := a.isLt; have := b.isLt
  rw [distance_eq, BitVec.toNat_add, BitVec.toNat_ofNat]
  omega

theorem add_distance_add (a b : BitVec 16) (i : Nat) : a + BitVec.ofNat 16 (distance a b + i) = b + BitVec.ofNat 16 i := by
  have h : BitVec.ofNat 16 (distance a b + i) = BitVec.ofNat 16 (distance a b) + BitVec.ofNat 16 i := by
    simp [BitVec.ofNat_add]
  rw [h, ← BitVec.add_assoc, add_distance]

theorem succ_add (a : BitVec 16) (i : Nat) : a + BitVec.ofNat 16 (i + 1) = a + 1 + BitVec.ofNat 16 i := by
  have h : BitVec.ofNat 16 (i + 1) = 1 + BitVec.ofNat 16 i := by
    rw [Nat.add_comm]
    simp [BitVec.ofNat_add]
  rw [h, BitVec.add_assoc]

theorem isNewer_iff (b a : BitVec 16) : isNewer b a = true ↔ 0 < distance a b ∧ distance a b < 32768 := by
  simp [isNewer]

theorem isOlder_iff (b a : BitVec 16) : isOlder b a = true ↔ 0 < distance b a ∧ distance b a < 32768 := by
  simp [isOlder, isNewer]

/-! ## Saturation -/

theorem satInc_ne_zero {n : Nat} (c : BitVec n) (hn : 0 < n) : satInc c ≠ 0 := by
  intro h
  have h2 : (satInc c).toNat = 0 := by rw [h]; simp
  have h1 : 1 < 2 ^ n := Nat.one_lt_two_pow (by omega)
  have : (satInc c).toNat = min (c.toNat + 1) (2 ^ n - 1) := by
    simp only [satInc, satAdd, BitVec.toNat_ofNat]
    exact Nat.mod_eq_of_lt (by omega)
  omega

/-- A saturating counter below its top takes the whole addition. -/
theorem satAdd_toNat {n : Nat} (c : BitVec n) (k : Nat) : (satAdd c k).toNat = min (c.toNat + k) (2 ^ n - 1) := by
  have h1 : 0 < 2 ^ n := Nat.two_pow_pos n
  simp only [satAdd, BitVec.toNat_ofNat]
  exact Nat.mod_eq_of_lt (by omega)

/-- A saturating counter never falls. -/
theorem le_satAdd {n : Nat} (c : BitVec n) (k : Nat) : c.toNat ≤ (satAdd c k).toNat := by
  rw [satAdd_toNat]
  have := c.isLt
  omega

end Sys2Proof.Machine
end

