-- ==== Sys2Proof/Laws/Lanes.lean ====
section
/-! SUPPORT. Every operation on one lane keeps what holds of every lane (R89, R100, R115, R116, R117, R130). -/

namespace Sys2Proof.Machine

variable {l : LaneId} {ln : Lane}

/-! ## Numbered lists -/

theorem numbered_nil (first : SeqNo) (st : BundleState) : numbered first st [] := by intro i b h; simp at h

theorem numbered_append {first : SeqNo} {st : BundleState} {bs : List Bundle} {b : Bundle} (h : numbered first st bs)
    (hs : b.seq = some (first + BitVec.ofNat 16 bs.length)) (ht : b.state = st) (hr : b.records ≠ [])
    (hc : b.closeReason.isSome = true) : numbered first st (bs ++ [b]) := by
  intro i x hx
  rw [List.getElem?_append] at hx
  split at hx
  · exact h i x hx
  · rename_i hlt
    have : i = bs.length := by
      by_contra hne
      have : 1 ≤ i - bs.length := by omega
      rw [List.getElem?_eq_none (by simpa using this)] at hx
      cases hx
    subst this
    simp at hx
    subst hx
    exact ⟨hs, ht, hr, hc⟩

theorem numbered_drop {first : SeqNo} {st : BundleState} {bs : List Bundle} (h : numbered first st bs) (x : SeqNo) :
    numbered x st (bs.drop (distance first x)) := by
  intro i b hb
  rw [List.getElem?_drop] at hb
  obtain ⟨h1, h2⟩ := h _ _ hb
  refine ⟨?_, h2⟩
  rw [h1, add_distance_add]

theorem numbered_tail {first : SeqNo} {st : BundleState} {b : Bundle} {bs : List Bundle} (h : numbered first st (b :: bs)) :
    numbered (first + 1) st bs := by
  intro i x hx
  obtain ⟨h1, h2⟩ := h (i + 1) x (by simpa using hx)
  exact ⟨by rw [h1, succ_add], h2⟩

theorem numbered_set {first : SeqNo} {st : BundleState} {bs : List Bundle} {b x : Bundle} {k : Nat} (h : numbered first st bs)
    (hk : bs[k]? = some b) (hs : x.seq = b.seq) (ht : x.state = b.state) (hr : x.records = b.records)
    (hc : x.closeReason = b.closeReason) : numbered first st (bs.set k x) := by
  intro i y hy
  rw [List.getElem?_set] at hy
  split at hy
  · rename_i hki
    subst hki
    split at hy
    · cases hy
      obtain ⟨h1, h2, h3, h4⟩ := h _ _ hk
      exact ⟨hs.trans h1, ht.trans h2, by rw [hr]; exact h3, by rw [hc]; exact h4⟩
    · cases hy
  · exact h i y hy

/-! ## The Assembler's side -/

/-- A lane in service with another open bundle, timers and assembly counters. -/
theorem Lane.Sound.withOpen (h : ln.Sound l) (hd : ln.ldu.state ≠ .disabled) (hp : ln.asm.pendingB = none) {b : Bundle}
    (idle age : Timer) (counters : AssemblyCounters) (hs : b.Sound ln.asm.config l)
    (ho : b.state = .open ∧ b.seq = none ∧ (b.records = [] → b.closeReason = none)
      ∧ (b.closeReason = none → b.records.length < ln.asm.config.recordLimit))
    (ht : (idle ≠ .stopped ∨ age ≠ .stopped) → b.records ≠ [] ∧ b.closeReason = none) :
    ({ ln with asm := { ln.asm with openB := some b, idle, age, counters } } : Lane).Sound l := by
  refine { h with disabled := ?_, oneBundle := ?_, opened := ?_, bundles := ?_, timers := ?_ }
  · intro hx; exact absurd hx hd
  · intro _; simp [hp]
  · intro x hx; simp at hx; subst hx; exact ho
  · intro x hx
    simp only [Lane.bundles, Option.toList_some, List.mem_append, List.mem_singleton] at hx
    rcases hx with ((hx | hx) | hx) | hx
    · subst hx; exact hs
    all_goals exact h.bundles x (by simp [Lane.bundles, hx])
  · intro hx
    obtain ⟨h1, h2⟩ := ht hx
    exact ⟨h1, by simp [Lane.offered, h2]⟩

/-- With an open bundle present the lane is in service and nothing is pending. -/
theorem Lane.Sound.of_open (h : ln.Sound l) {b : Bundle} (hb : ln.asm.openB = some b) :
    ln.ldu.state ≠ .disabled ∧ ln.asm.pendingB = none := by
  have hd : ln.ldu.state ≠ .disabled := fun hd => by simp [(h.disabled hd).1] at hb
  refine ⟨hd, ?_⟩
  have := h.oneBundle hd
  simpa [hb] using this.symm

theorem Lane.Sound.bundle_open (h : ln.Sound l) {b : Bundle} (hb : ln.asm.openB = some b) : b.Sound ln.asm.config l :=
  h.bundles b (by simp [Lane.bundles, hb])

theorem Lane.Sound.close (h : ln.Sound l) (now : Word) (reason : CloseReason) : (ln.close now reason).Sound l := by
  unfold Lane.close
  split
  · rename_i b hb
    split
    · rename_i hc
      obtain ⟨hd, hp⟩ := h.of_open hb
      have ho := h.opened b hb
      have hs := h.bundle_open hb
      exact h.withOpen hd hp .stopped .stopped _ ⟨hs.lane, hs.payload, hs.cells, hs.records, hs.size⟩
        ⟨ho.1, ho.2.1, fun hr => absurd hr hc.1, fun hx => by simp at hx⟩ (fun hx => by simp at hx)
    · exact h
  · exact h

/-- A closed bundle that leaves the Assembler, with the facts a handoff needs of it. -/
theorem Lane.Sound.handOff (h : ln.Sound l) (hne : ln.ldu.state ≠ .disabled) (b : Bundle)
    (hb : ln.asm.openB = some b ∨ ln.asm.pendingB = some b) (hr : b.records ≠ []) (hc : b.closeReason.isSome = true)
    (htimers : ln.asm.idle = .stopped ∧ ln.asm.age = .stopped) : (ln.handOff l b).Sound l := by
  have hbs : b.Sound ln.asm.config l := h.bundles b (by rcases hb with hb | hb <;> simp [Lane.bundles, hb])
  have hrl := h.readied.1
  unfold Lane.handOff
  split
  · rename_i hlt
    simp only [Config.readyPlaces] at hlt
    have hw : distance ln.ldu.s (ln.ldu.c + 1) = distance ln.ldu.s ln.ldu.c + 1 := distance_succ _ _ (by omega)
    refine { h with
      disabled := ?_, oneBundle := ?_, waiting := ?_, readied := ?_, opened := ?_, pending := ?_, bundles := ?_, timers := ?_ }
    · intro hd; exact absurd hd hne
    · intro _; rfl
    · show distance ln.ldu.s (ln.ldu.c + 1) ≤ 32
      rw [hw]; omega
    · refine ⟨?_, ?_⟩
      · show (ln.ldu.ready ++ [_]).length = distance ln.ldu.s (ln.ldu.c + 1)
        rw [hw]; simp [hrl]
      · apply numbered_append h.readied.2
        · show some ln.ldu.c = some (ln.ldu.s + _)
          rw [hrl, add_distance]
        · rfl
        · exact hr
        · exact hc
    · intro x hx
      simp at hx
      subst hx
      exact ⟨rfl, rfl, fun _ => rfl, fun _ => h.limits.1⟩
    · intro x hx; simp at hx
    · intro x hx
      simp only [Lane.bundles, Option.toList_some, Option.toList_none, List.append_nil, List.mem_append, List.mem_singleton] at hx
      rcases hx with (hx | hx | hx) | hx
      · subst hx
        exact ⟨rfl, rfl, rfl, Nat.zero_le _, fun hx => absurd rfl hx⟩
      · exact h.bundles x (by simp [Lane.bundles, hx])
      · subst hx
        exact ⟨hbs.lane, hbs.payload, hbs.cells, hbs.records, hbs.size⟩
      · exact h.bundles x (by simp [Lane.bundles, hx])
    · intro ht; simp [htimers.1, htimers.2] at ht
  · refine { h with disabled := ?_, oneBundle := ?_, opened := ?_, pending := ?_, bundles := ?_, timers := ?_ }
    · intro hd; exact absurd hd hne
    · intro _; rfl
    · intro x hx; simp at hx
    · intro x hx
      simp at hx
      subst hx
      refine ⟨rfl, ?_, hr, hc⟩
      rcases hb with hb | hb
      · exact (h.opened b hb).2.1
      · exact (h.pending b hb).2.1
    · intro x hx
      simp only [Lane.bundles, Option.toList_some, Option.toList_none, List.nil_append, List.mem_append, List.mem_singleton] at hx
      rcases hx with (hx | hx) | hx
      · subst hx
        exact ⟨hbs.lane, hbs.payload, hbs.cells, hbs.records, hbs.size⟩
      all_goals exact h.bundles x (by simp [Lane.bundles, hx])
    · intro ht; simp [htimers.1, htimers.2] at ht

/-- An offered bundle is the open one, closed, and both timers are stopped. -/
theorem Lane.Sound.of_offered (h : ln.Sound l) {b : Bundle} (hb : ln.offered = some b) :
    ln.asm.openB = some b ∧ b.records ≠ [] ∧ b.closeReason.isSome = true ∧ ln.ldu.state ≠ .disabled
      ∧ ln.asm.idle = .stopped ∧ ln.asm.age = .stopped := by
  have hstop : ln.asm.idle = .stopped ∧ ln.asm.age = .stopped := by
    by_contra hc
    have : ln.asm.idle ≠ .stopped ∨ ln.asm.age ≠ .stopped := by
      by_cases hi : ln.asm.idle = .stopped
      · exact Or.inr fun ha => hc ⟨hi, ha⟩
      · exact Or.inl hi
    rw [(h.timers this).2] at hb
    cases hb
  unfold Lane.offered at hb
  split at hb
  · rename_i x hx
    split at hb
    · rename_i hs
      cases hb
      refine ⟨hx, ?_, hs, ?_, hstop⟩
      · intro hr
        rw [(h.opened _ hx).2.2.1 hr] at hs
        cases hs
      · intro hd
        rw [(h.disabled hd).1] at hx
        cases hx
    · cases hb
  · cases hb

theorem Lane.Sound.settle (h : ln.Sound l) : (ln.settle l).Sound l := by
  unfold Lane.settle
  split
  · rename_i b hb
    obtain ⟨h1, h2, h3, h4, h5⟩ := h.of_offered hb
    exact h.handOff h4 b (Or.inl h1) h2 h3 h5
  · exact h

theorem Lane.Sound.closeNow (h : ln.Sound l) (now : Word) (reason : CloseReason) : (ln.closeNow l now reason).Sound l :=
  (h.close now reason).settle

/-- While a bundle is pending both timers are stopped. -/
theorem Lane.Sound.pending_stopped (h : ln.Sound l) {b : Bundle} (hb : ln.asm.pendingB = some b) :
    ln.asm.openB = none ∧ ln.ldu.state ≠ .disabled ∧ ln.asm.idle = .stopped ∧ ln.asm.age = .stopped := by
  have hd : ln.ldu.state ≠ .disabled := fun hd => by simp [(h.disabled hd).2.1] at hb
  have ho : ln.asm.openB = none := by
    have := h.oneBundle hd
    simpa [hb] using this
  refine ⟨ho, hd, ?_, ?_⟩ <;>
  · by_contra hc
    have : ln.openRecords ≠ [] := (h.timers (by first | exact Or.inl hc | exact Or.inr hc)).1
    simp [Lane.openRecords, ho] at this

theorem Lane.Sound.completePending (h : ln.Sound l) : (ln.completePending l).Sound l := by
  unfold Lane.completePending
  split
  · rename_i b hb
    split
    · obtain ⟨_, hd, ht⟩ := h.pending_stopped hb
      obtain ⟨_, _, hr, hc⟩ := h.pending b hb
      exact h.handOff hd b (Or.inr hb) hr hc ht
    · exact h
  · exact h

theorem Lane.Sound.makeRoom (h : ln.Sound l) (now : Word) (size : Nat) : (ln.makeRoom l now size).Sound l := by
  unfold Lane.makeRoom
  split
  · split
    · exact h.closeNow now .fill
    · exact h
  · exact h

/-- The cells of a bundle grow to the ceiling of its new size (R75, R96). -/
theorem cellsFor_mono {a b : Nat} (h : a ≤ b) : cellsFor a ≤ cellsFor b := by
  simp only [cellsFor, Config.headerBytes, Config.cellBytes]
  omega

/-- A record appended to the open bundle, and the close check after it (R97, R98). -/
theorem Lane.Sound.placed (h : ln.Sound l) {b : Bundle} (hb : ln.asm.openB = some b) (hoff : ln.offered = none) (now : Word)
    (r : PlacedRecord) (urgent : Bool) (hfit : 16 + b.payload + r.size ≤ ln.asm.config.maxBytes) :
    ((ln.append now b r (cellsFor (b.payload + r.size) - b.cells)).closeCheck now urgent).Sound l := by
  obtain ⟨hd, hp⟩ := h.of_open hb
  have ho := h.opened b hb
  have hs := h.bundle_open hb
  have hcr : b.closeReason = none := by
    unfold Lane.offered at hoff
    rw [hb] at hoff
    dsimp only at hoff
    split at hoff
    · cases hoff
    · rename_i hx
      simpa using hx
  have hlt := ho.2.2.2 hcr
  have hcells : b.cells + (cellsFor (b.payload + r.size) - b.cells) = cellsFor (b.payload + r.size) := by
    have : b.cells ≤ cellsFor (b.payload + r.size) := by
      rw [hs.cells]
      split
      · exact Nat.zero_le _
      · exact cellsFor_mono (Nat.le_add_right _ _)
    omega
  have hne : b.records ++ [r] ≠ [] := by simp
  have key : ∀ x : Bundle, x.lane = b.lane → x.payload = b.payload + r.size → x.cells = cellsFor (b.payload + r.size) →
      x.records = b.records ++ [r] → x.Sound ln.asm.config l := by
    intro x h1 h2 h3 h4
    refine ⟨h1.trans hs.lane, ?_, ?_, ?_, ?_⟩
    · rw [h2, h4, hs.payload]; simp
    · rw [h3, h4, h2]; simp
    · rw [h4]; simp; omega
    · intro _; rw [h2]; omega
  have closed : ∀ reason, ((ln.append now b r (cellsFor (b.payload + r.size) - b.cells)).close now reason).Sound l := by
    intro reason
    have : (ln.append now b r (cellsFor (b.payload + r.size) - b.cells)).close now reason =
        { ln with asm := { ln.asm with
          openB := some { b.append now r (cellsFor (b.payload + r.size) - b.cells) with
            closeTime := some now, closeReason := some reason }
          idle := .stopped
          age := .stopped
          counters := (ln.append now b r (cellsFor (b.payload + r.size) - b.cells)).asm.counters.countClose reason } } := by
      simp [Lane.close, Lane.append, Bundle.append, hcr]
    rw [this]
    refine h.withOpen hd hp _ _ _ (key _ rfl rfl hcells rfl) ⟨ho.1, ho.2.1, fun hx => absurd hx hne, fun hx => by simp at hx⟩
      (fun hx => by simp at hx)
  unfold Lane.closeCheck
  split
  · exact closed .count
  · rename_i hlim
    split
    · exact closed .urgent
    · refine h.withOpen hd hp _ _ _ (key _ rfl rfl hcells rfl) ⟨ho.1, ho.2.1, fun hx => absurd hx hne, fun _ => ?_⟩
        (fun _ => ⟨hne, hcr⟩)
      simpa [Lane.openRecords, Lane.append] using hlim

/-! ## The LDU's side -/

/-- A lane in service in another state in service: the retry count is within the limit, and the flag is clear. -/
theorem Lane.Sound.inState (h : ln.Sound l) (hd : ln.ldu.state ≠ .disabled) {st : LaneState} (hst : st ≠ .disabled)
    (hretry : ln.ldu.retry ≤ ln.ldu.config.retryLimit) (hflag : ln.ldu.drainRequested = false) :
    ({ ln with ldu := { ln.ldu with state := st } } : Lane).Sound l :=
  { h with
    disabled := fun hx => absurd hx hst
    oneBundle := fun _ => h.oneBundle hd
    retries := ⟨h.retries.1, h.retries.2.1, fun _ => hretry⟩
    drain := fun hx => by simp [hflag] at hx }

/-! What settling leaves alone at the LDU. -/

theorem Lane.handOff_ldu (l : LaneId) (ln : Lane) (b : Bundle) :
    (ln.handOff l b).ldu = { ln.ldu with c := (ln.handOff l b).ldu.c, ready := (ln.handOff l b).ldu.ready } := by
  unfold Lane.handOff; split <;> rfl

theorem Lane.settle_ldu (l : LaneId) (ln : Lane) :
    (ln.settle l).ldu = { ln.ldu with c := (ln.settle l).ldu.c, ready := (ln.settle l).ldu.ready } := by
  unfold Lane.settle
  split
  · exact Lane.handOff_ldu _ _ _
  · rfl

theorem Lane.close_ldu (now : Word) (reason : CloseReason) (ln : Lane) : (ln.close now reason).ldu = ln.ldu := by
  unfold Lane.close
  split
  · split <;> rfl
  · rfl

theorem Lane.closeNow_ldu (l : LaneId) (now : Word) (reason : CloseReason) (ln : Lane) :
    (ln.closeNow l now reason).ldu =
      { ln.ldu with c := (ln.closeNow l now reason).ldu.c, ready := (ln.closeNow l now reason).ldu.ready } := by
  have h := Lane.settle_ldu l (ln.close now reason)
  unfold Lane.closeNow
  rw [Lane.close_ldu] at h
  exact h

theorem Lane.enterDraining_ldu (l : LaneId) (now : Word) (ln : Lane) :
    (ln.enterDraining l now).ldu =
      { ln.ldu with
        state := .draining, c := (ln.enterDraining l now).ldu.c, ready := (ln.enterDraining l now).ldu.ready } := by
  unfold Lane.enterDraining
  dsimp only
  have h1 := Lane.settle_ldu l ln
  have h2 := Lane.closeNow_ldu l now .drain { ln.settle l with ldu := { (ln.settle l).ldu with state := .draining } }
  generalize Lane.closeNow l now .drain { ln.settle l with ldu := { (ln.settle l).ldu with state := .draining } } = x at h2 ⊢
  rw [h2, h1]

theorem Lane.Sound.enterDraining (h : ln.Sound l) (hd : ln.ldu.state ≠ .disabled) (now : Word)
    (hretry : ln.ldu.retry ≤ ln.ldu.config.retryLimit) (hflag : ln.ldu.drainRequested = false) :
    (ln.enterDraining l now).Sound l := by
  unfold Lane.enterDraining
  dsimp only
  have h1 := Lane.settle_ldu l ln
  apply Lane.Sound.closeNow
  apply h.settle.inState
  · rw [h1]; exact hd
  · intro hx; cases hx
  · rw [h1]; exact hretry
  · rw [h1]; exact hflag

theorem Lane.Sound.leaveStall (h : ln.Sound l) (now : Word) (hretry : ln.ldu.retry ≤ ln.ldu.config.retryLimit) :
    (ln.leaveStall l now).Sound l := by
  unfold Lane.leaveStall
  split
  · rename_i hs
    have hd : ln.ldu.state ≠ .disabled := by rw [hs]; intro hx; cases hx
    split
    · have h' : ({ ln with ldu := { ln.ldu with drainRequested := false } } : Lane).Sound l :=
        { h with drain := fun hx => by simp at hx }
      exact h'.enterDraining hd now hretry rfl
    · rename_i hf
      exact h.inState hd (by intro hx; cases hx) hretry (by simpa using hf)
  all_goals exact h

theorem Lane.Sound.startTimer (h : ln.Sound l) (up : Bool) (now : Word) : (ln.startTimer up now).Sound l := by
  unfold Lane.startTimer
  split
  · exact { h with }
  · exact h

theorem Lane.Sound.stopTimer (h : ln.Sound l) (t : Timer) : ({ ln with ldu := { ln.ldu with timer := t } } : Lane).Sound l :=
  { h with }

/-- The lane between the release of the acknowledged bundles and the end of a stall (R120, R121). -/
def Lane.acked (ln : Lane) (ack : SeqNo) : Lane :=
  { ln with ldu := { ln.ldu with
    a := ack
    r := if isOlder ln.ldu.r ack then ack else ln.ldu.r
    retention := ln.ldu.retention.drop (distance ln.ldu.a ack)
    retry := 0 } }

theorem Lane.Sound.acked (h : ln.Sound l) (ack : SeqNo)
    (hv : distance ln.ldu.a ack ≤ distance ln.ldu.a ln.ldu.s) (hne : ln.ldu.state ≠ .disabled) :
    (ln.acked ack).Sound l := by
  have hw := h.sent
  have hW := h.window.2
  have hsplit : distance ack ln.ldu.s = distance ln.ldu.a ln.ldu.s - distance ln.ldu.a ack := distance_split hv
  have hg : distance ack ln.ldu.g = distance ln.ldu.a ln.ldu.g - distance ln.ldu.a ack :=
    distance_split (Nat.le_trans hv h.grant.1)
  refine { h with
    disabled := fun hx => absurd hx hne, cursor := ?_, sent := ?_, retained := ?_, grant := ?_, bundles := ?_, retries := ?_ }
  · show distance ack (if isOlder ln.ldu.r ack = true then ack else ln.ldu.r) ≤ distance ack ln.ldu.s
    split
    · simp
    · rename_i ho
      rw [isOlder_iff] at ho
      have hc := h.cursor
      have : distance ln.ldu.a ack ≤ distance ln.ldu.a ln.ldu.r := by
        by_contra hlt
        have := distance_split (a := ln.ldu.a) (b := ln.ldu.r) (c := ack) (by omega)
        omega
      rw [distance_split this, hsplit]
      omega
  · show distance ack ln.ldu.s ≤ ln.ldu.config.window
    omega
  · refine ⟨?_, numbered_drop h.retained.2 ack⟩
    show (ln.ldu.retention.drop _).length = distance ack ln.ldu.s
    rw [List.length_drop, h.retained.1, hsplit]
  · show distance ack ln.ldu.s ≤ distance ack ln.ldu.g ∧ distance ack ln.ldu.g ≤ ln.ldu.config.window
    have := h.grant
    omega
  · intro b hb
    apply h.bundles b
    simp only [Lane.bundles, List.mem_append] at hb ⊢
    rcases hb with hb | hb
    · exact Or.inl hb
    · exact Or.inr (List.mem_of_mem_drop hb)
  · exact ⟨h.retries.1, Nat.zero_le _, fun _ => Nat.zero_le _⟩

/-- A valid ack that advances A (R119 to R121). -/
theorem Lane.Sound.ackAdvance (h : ln.Sound l) (up : Bool) (now : Word) (ack : SeqNo)
    (hv : distance ln.ldu.a ack ≤ distance ln.ldu.a ln.ldu.s) (hne : ln.ldu.state ≠ .disabled) :
    (ln.ackAdvance l up now ack).Sound l := by
  have settled : ∀ x : Lane, x.Sound l →
      (if x.ldu.retention.isEmpty then { x with ldu := { x.ldu with timer := .stopped } } else x.startTimer up now).Sound l := by
    intro x hx
    split
    · exact hx.stopTimer .stopped
    · exact hx.startTimer up now
  exact settled _ ((h.acked ack hv hne).leaveStall now (Nat.zero_le _))

theorem Ldu.afterGrant_eq (u : Ldu) (g : SeqNo) : u.afterGrant g = { u with g := (u.afterGrant g).g } := by
  unfold Ldu.afterGrant
  split <;> rfl

/-- A grant (R122) keeps G between S and A + W. -/
theorem Lane.Sound.afterGrant (h : ln.Sound l) (g : SeqNo) (hne : ln.ldu.state ≠ .disabled) :
    ({ ln with ldu := ln.ldu.afterGrant g } : Lane).Sound l := by
  have hw := h.sent
  have hW := h.window.2
  have key : ∀ x : SeqNo, distance ln.ldu.a ln.ldu.s ≤ distance ln.ldu.a x → distance ln.ldu.a x ≤ ln.ldu.config.window →
      ({ ln with ldu := { ln.ldu with g := x } } : Lane).Sound l := by
    intro x h1 h2
    exact { h with disabled := fun hx => absurd hx hne, grant := ⟨h1, h2⟩ }
  unfold Ldu.afterGrant
  split
  · exact h
  · rename_i hj
    unfold Ldu.judgeGrant at hj
    split at hj
    · cases hj
    · rename_i ho
      split at hj
      · rename_i hle
        apply key _ _ hle
        by_contra hlt
        have := distance_split (a := ln.ldu.a) (b := g) (c := ln.ldu.s) (by omega)
        rw [isOlder_iff] at ho
        omega
      · cases hj
  · apply key
    · rw [distance_add _ _ (by omega)]; exact hw
    · rw [distance_add _ _ (by omega)]

theorem Lane.Sound.resendFrom (h : ln.Sound l) (up : Bool) (now : Word) (x : SeqNo) (hx : ln.ldu.retains x = true)
    (hne : ln.ldu.state ≠ .disabled) : (ln.resendFrom l up now x).Sound l := by
  have hx' : distance ln.ldu.a x < distance ln.ldu.a ln.ldu.s := by simpa [Ldu.retains] using hx
  unfold Lane.resendFrom
  apply Lane.Sound.startTimer
  apply Lane.Sound.leaveStall
  · exact { h with
      disabled := fun hd => absurd hd hne
      cursor := Nat.le_of_lt hx'
      retries := ⟨h.retries.1, Nat.zero_le _, fun _ => Nat.zero_le _⟩ }
  · exact Nat.zero_le _

/-- The lane after its head left the ready queue, before the timer and a pending handoff (R126). -/
def Lane.headSent (ln : Lane) (b : Bundle) (rest : List Bundle) : Lane :=
  { ln with ldu := { ln.ldu with
    ready := rest
    retention := ln.ldu.retention ++ [{ b with state := .sent }]
    s := ln.ldu.s + 1
    r := ln.ldu.r + 1
    counters := { ln.ldu.counters with bundlesSent := satInc ln.ldu.counters.bundlesSent } } }

theorem Lane.Sound.headSent (h : ln.Sound l) {b : Bundle} {rest : List Bundle}
    (hr : ln.ldu.ready = b :: rest) (heq : ln.ldu.r = ln.ldu.s) (hready : ln.ldu.firstSendReady = true)
    (hne : ln.ldu.state ≠ .disabled) : (ln.headSent b rest).Sound l := by
  have hw := h.sent
  have hW := h.window.2
  have hgr := h.grant
  have hrl := h.readied.1
  have hwait := h.waiting
  rw [hr] at hrl
  simp only [List.length_cons] at hrl
  simp only [Ldu.firstSendReady, Bool.and_eq_true, isNewer_iff] at hready
  obtain ⟨hq, hst, hrec, hclose⟩ := h.readied.2 0 b (by simp [hr])
  have hseq : b.seq = some ln.ldu.s := by simpa using hq
  have hlt : distance ln.ldu.a ln.ldu.s < distance ln.ldu.a ln.ldu.g := by
    have := distance_split hgr.1
    omega
  have hsucc : distance ln.ldu.a (ln.ldu.s + 1) = distance ln.ldu.a ln.ldu.s + 1 := distance_succ _ _ (by omega)
  have hcs : distance (ln.ldu.s + 1) ln.ldu.c = distance ln.ldu.s ln.ldu.c - 1 := distance_from_succ _ _ hready.1.1
  have hb : b.Sound ln.asm.config l := h.bundles b (by simp [Lane.bundles, hr])
  refine { h with
    disabled := fun hd => absurd hd hne, cursor := ?_, sent := ?_, waiting := ?_, retained := ?_, readied := ?_, grant := ?_
    bundles := ?_ }
  · show distance ln.ldu.a (ln.ldu.r + 1) ≤ distance ln.ldu.a (ln.ldu.s + 1)
    rw [heq]
  · show distance ln.ldu.a (ln.ldu.s + 1) ≤ ln.ldu.config.window
    omega
  · show distance (ln.ldu.s + 1) ln.ldu.c ≤ 32
    omega
  · refine ⟨?_, ?_⟩
    · show (ln.ldu.retention ++ [_]).length = distance ln.ldu.a (ln.ldu.s + 1)
      rw [hsucc, List.length_append, h.retained.1]; rfl
    · apply numbered_append h.retained.2
      · show b.seq = _
        rw [h.retained.1, add_distance, hseq]
      · rfl
      · exact hrec
      · exact hclose
  · refine ⟨?_, ?_⟩
    · show rest.length = distance (ln.ldu.s + 1) ln.ldu.c
      omega
    · have hn := h.readied.2
      rw [hr] at hn
      exact numbered_tail hn
  · show distance ln.ldu.a (ln.ldu.s + 1) ≤ distance ln.ldu.a ln.ldu.g ∧ _
    exact ⟨by omega, hgr.2⟩
  · intro x hx
    simp only [Lane.bundles, Lane.headSent, List.mem_append, List.mem_singleton] at hx
    rcases hx with (hx | hx) | hx | hx
    · exact h.bundles x (by simp only [Lane.bundles, List.mem_append]; exact Or.inl (Or.inl hx))
    · exact h.bundles x (by simp [Lane.bundles, hr, hx])
    · exact h.bundles x (by simp [Lane.bundles, hx])
    · subst hx
      exact ⟨hb.lane, hb.payload, hb.cells, hb.records, hb.size⟩

/-- A first send (R126). -/
theorem Lane.Sound.firstSend (h : ln.Sound l) (up : Bool) (now : Word) {b : Bundle} {rest : List Bundle}
    (hr : ln.ldu.ready = b :: rest) (heq : ln.ldu.r = ln.ldu.s) (hready : ln.ldu.firstSendReady = true)
    (hne : ln.ldu.state ≠ .disabled) : (ln.firstSend l up now b rest).Sound l := by
  have sent := h.headSent hr heq hready hne
  unfold Lane.firstSend
  dsimp only
  split
  · exact (sent.startTimer up now).completePending
  · exact sent.completePending

/-- A resend (R127). -/
theorem Lane.Sound.resend (h : ln.Sound l) {b : Bundle}
    (hb : ln.ldu.retention[distance ln.ldu.a ln.ldu.r]? = some b) (hwait : ln.ldu.resendWaiting = true)
    (hne : ln.ldu.state ≠ .disabled) : (ln.resend (distance ln.ldu.a ln.ldu.r) b).Sound l := by
  have hw := h.sent
  have hW := h.window.2
  simp only [Ldu.resendWaiting, isNewer_iff] at hwait
  have hmem : b ∈ ln.ldu.retention := List.mem_of_getElem? hb
  have hbs : b.Sound ln.asm.config l := h.bundles b (by simp [Lane.bundles, hmem])
  have hlt : distance ln.ldu.a ln.ldu.r < distance ln.ldu.a ln.ldu.s := by
    have := distance_split h.cursor
    omega
  unfold Lane.resend
  refine { h with disabled := fun hd => absurd hd hne, cursor := ?_, retained := ?_, bundles := ?_ }
  · show distance ln.ldu.a (ln.ldu.r + 1) ≤ distance ln.ldu.a ln.ldu.s
    rw [distance_succ _ _ (by omega)]
    omega
  · refine ⟨?_, numbered_set h.retained.2 hb rfl rfl rfl rfl⟩
    show (ln.ldu.retention.set _ _).length = _
    rw [List.length_set]
    exact h.retained.1
  · intro x hx
    simp only [Lane.bundles, List.mem_append] at hx
    rcases hx with hx | hx
    · exact h.bundles x (by simp only [Lane.bundles, List.mem_append]; exact Or.inl hx)
    · rcases List.mem_or_eq_of_mem_set hx with hx | hx
      · exact h.bundles x (by simp [Lane.bundles, hx])
      · subst hx
        exact ⟨hbs.lane, hbs.payload, hbs.cells, hbs.records, hbs.size⟩

/-- A retransmit expiry (R131). -/
theorem Lane.Sound.expire (h : ln.Sound l) (up : Bool) (now : Word) (hne : ln.ldu.state = .open ∨ ln.ldu.state = .draining) :
    (ln.expire up now).1.Sound l := by
  have hd : ln.ldu.state ≠ .disabled := by rcases hne with hx | hx <;> rw [hx] <;> intro hy <;> cases hy
  have hs : ln.ldu.state ≠ .stalled := by rcases hne with hx | hx <;> rw [hx] <;> intro hy <;> cases hy
  have hr := h.retries.2.2 hs
  unfold Lane.expire
  dsimp only
  split
  · rename_i hle
    apply Lane.Sound.startTimer
    exact { h with
      disabled := fun hx => absurd hx hd
      cursor := by show distance ln.ldu.a ln.ldu.a ≤ distance ln.ldu.a ln.ldu.s; simp
      retries := ⟨h.retries.1, Nat.le_succ_of_le hle, fun _ => hle⟩ }
  · exact { h with
      disabled := fun hx => by cases hx
      oneBundle := fun _ => h.oneBundle hd
      retries := ⟨h.retries.1, Nat.succ_le_succ hr, fun hx => absurd rfl hx⟩
      drain := fun _ => rfl }

/-- Every entry to DISABLED (R117). -/
theorem Lane.Sound.toDisabled (h : ln.Sound l) : ln.disabled.Sound l where
  disabled := fun _ => ⟨rfl, rfl, rfl, rfl, rfl, rfl, rfl, rfl, rfl, rfl⟩
  oneBundle := fun hx => absurd rfl hx
  window := h.window
  limits := h.limits
  cursor := by simp [Lane.disabled]
  sent := by simp [Lane.disabled]
  waiting := by simp [Lane.disabled]
  retained := ⟨by simp [Lane.disabled], numbered_nil _ _⟩
  readied := ⟨by simp [Lane.disabled], numbered_nil _ _⟩
  grant := by simp [Lane.disabled]
  opened := fun b hb => by simp [Lane.disabled] at hb
  pending := fun b hb => by simp [Lane.disabled] at hb
  bundles := fun b hb => by simp [Lane.disabled, Lane.bundles] at hb
  timers := fun hx => by simp [Lane.disabled] at hx
  retries := ⟨h.retries.1, Nat.zero_le _, fun _ => Nat.zero_le _⟩
  drain := fun hx => by simp [Lane.disabled] at hx

/-- LANE_START (R107, R137). -/
theorem Lane.Sound.started (h : ln.Sound l) (hs : ln.ldu.state = .disabled) : (ln.started l).Sound l := by
  obtain ⟨h1, h2, h3, h4, h5, h6, h7, h8, h9, h10⟩ := h.disabled hs
  have hdr : ln.ldu.drainRequested = false := by
    by_contra hx
    have := h.drain (by simpa using hx)
    rw [hs] at this
    cases this
  unfold Lane.started
  refine { h with
    disabled := fun hx => by (cases hx), oneBundle := fun _ => by simp [h2], opened := ?_, bundles := ?_
    timers := fun hx => by simp at hx
    retries := ⟨h.retries.1, by simp [h10], fun _ => by simp [h10]⟩
    drain := fun hx => by simp [hdr] at hx }
  · intro b hb
    simp at hb
    subst hb
    exact ⟨rfl, rfl, fun _ => rfl, fun _ => h.limits.1⟩
  · intro b hb
    simp [Lane.bundles, h2, h3, h4] at hb
    subst hb
    exact ⟨rfl, rfl, rfl, Nat.zero_le _, fun hx => absurd rfl hx⟩

/-- LANE_CONFIG on a DISABLED lane (R136). -/
theorem Lane.Sound.configured (h : ln.Sound l) (hs : ln.ldu.state = .disabled) (a : LaneConfigParams)
    (ha : a.inRanges = true) : (ln.configured a).Sound l := by
  obtain ⟨h1, h2, h3, h4, h5, h6, h7, h8, h9, h10⟩ := h.disabled hs
  simp only [LaneConfigParams.inRanges, Bool.and_eq_true] at ha
  obtain ⟨⟨⟨⟨⟨⟨r1, r2⟩, r3⟩, r4⟩, r5⟩, r6⟩, r7⟩ := ha
  have hwin : 1 ≤ a.window.getD ln.ldu.config.window ∧ a.window.getD ln.ldu.config.window ≤ 32 := by
    cases hw : a.window with
    | none => exact h.window
    | some v => simpa [hw, inRange] using r1
  have hlim : a.retryLimit.getD ln.ldu.config.retryLimit ≤ 15 := by
    cases hw : a.retryLimit with
    | none => exact h.retries.1
    | some v => simpa [hw, inRange] using r2
  have hmax : 128 ≤ a.maxBytes.getD ln.asm.config.maxBytes ∧ a.maxBytes.getD ln.asm.config.maxBytes ≤ 4096 := by
    cases hw : a.maxBytes with
    | none => exact h.limits.2
    | some v =>
      have : (128 ≤ v ∧ v ≤ 4096 ∧ v % 64 = 0) := by simpa [hw, inRange] using r4
      exact ⟨this.1, this.2.1⟩
  have hrec : 1 ≤ a.recordLimit.getD ln.asm.config.recordLimit := by
    cases hw : a.recordLimit with
    | none => exact h.limits.1
    | some v =>
      have : (1 ≤ v ∧ v ≤ 255) := by simpa [hw, inRange] using r5
      exact this.1
  unfold Lane.configured
  exact { h with
    window := hwin
    limits := ⟨hrec, hmax⟩
    sent := by simp [h5, h7]
    grant := by simp [h5, h7, h9]
    opened := fun b hb => by simp [h1] at hb
    pending := fun b hb => by simp [h2] at hb
    bundles := fun b hb => by simp [Lane.bundles, h1, h2, h3, h4] at hb
    retries := ⟨hlim, by simp [h10], fun _ => by simp [h10]⟩ }

theorem Lane.Sound.linkUp (h : ln.Sound l) (now : Word) : (ln.linkUp now).Sound l := h.startTimer true now

/-- Link-down at a lane (R141). -/
theorem Lane.Sound.linkDown (h : ln.Sound l) : ln.linkDown.Sound l := by
  unfold Lane.linkDown
  refine { h with disabled := ?_, grant := ⟨Nat.le_refl _, h.sent⟩ }
  intro hd
  obtain ⟨h1, h2, h3, h4, h5, h6, h7, h8, h9, h10⟩ := h.disabled hd
  exact ⟨h1, h2, h3, h4, h5, h6, h7, h8, h7, h10⟩

theorem Timer.tick_stopped {t : Timer} {now : Word} (h : t.tick now ≠ .stopped) : t ≠ .stopped := by
  intro hx; subst hx; exact h rfl

theorem Lane.Sound.tick (h : ln.Sound l) (now : Word) : (ln.tick now).Sound l := by
  unfold Lane.tick
  exact { h with
    timers := fun hx => h.timers (hx.imp Timer.tick_stopped Timer.tick_stopped) }

/-! ## The retransmit timer (R130) -/

variable {up : Bool}

theorem Lane.mayRun_iff (up : Bool) (ln : Lane) :
    ln.mayRun up = true ↔ up = true ∧ (ln.ldu.state = .open ∨ ln.ldu.state = .draining) ∧ ln.ldu.retention ≠ [] := by
  simp [Lane.mayRun, and_assoc]

/-- The timer's soundness depends on the timer, the lane state and the retention list alone. -/
theorem Lane.TimerSound.of_eq {ln' : Lane} (h : ln.TimerSound up) (ht : ln'.ldu.timer = ln.ldu.timer)
    (hs : ln'.ldu.state = ln.ldu.state) (hr : ln.ldu.retention ≠ [] → ln'.ldu.retention ≠ []) : ln'.TimerSound up := by
  intro hx
  rw [ht] at hx
  have := h hx
  rw [Lane.mayRun_iff] at this ⊢
  exact ⟨this.1, by rw [hs]; exact this.2.1, hr this.2.2⟩

theorem Lane.TimerSound.of_ldu {ln' : Lane} (h : ln.TimerSound up) {c : SeqNo} {ready : List Bundle}
    (he : ln'.ldu = { ln.ldu with c, ready }) : ln'.TimerSound up :=
  h.of_eq (by rw [he]) (by rw [he]) (by rw [he]; exact id)

theorem Lane.TimerSound.startTimer (h : ln.TimerSound up) (now : Word) : (ln.startTimer up now).TimerSound up := by
  unfold Lane.startTimer
  split
  · rename_i hm
    intro _
    rw [Lane.mayRun_iff] at hm ⊢
    exact hm
  · exact h

theorem Lane.TimerSound.close (h : ln.TimerSound up) (now : Word) (r : CloseReason) : (ln.close now r).TimerSound up :=
  h.of_eq (by rw [Lane.close_ldu]) (by rw [Lane.close_ldu]) (by rw [Lane.close_ldu]; exact id)

theorem Lane.TimerSound.settle (h : ln.TimerSound up) : (ln.settle l).TimerSound up := h.of_ldu (Lane.settle_ldu l ln)

theorem Lane.TimerSound.closeNow (h : ln.TimerSound up) (now : Word) (r : CloseReason) : (ln.closeNow l now r).TimerSound up :=
  h.of_ldu (Lane.closeNow_ldu l now r ln)

theorem Lane.TimerSound.completePending (h : ln.TimerSound up) : (ln.completePending l).TimerSound up := by
  unfold Lane.completePending
  split
  · split
    · exact h.of_ldu (Lane.handOff_ldu _ _ _)
    · exact h
  · exact h

theorem Lane.TimerSound.makeRoom (h : ln.TimerSound up) (now : Word) (size : Nat) : (ln.makeRoom l now size).TimerSound up := by
  unfold Lane.makeRoom
  split
  · split
    · exact h.closeNow now .fill
    · exact h
  · exact h

theorem Lane.TimerSound.placed (h : ln.TimerSound up) (now : Word) (b : Bundle) (r : PlacedRecord) (cells : Nat) (urgent : Bool) :
    ((ln.append now b r cells).closeCheck now urgent).TimerSound up := by
  have h' : (ln.append now b r cells).TimerSound up := h.of_eq rfl rfl id
  unfold Lane.closeCheck
  split
  · exact h'.close now .count
  · split
    · exact h'.close now .urgent
    · exact h'

/-- A timer that R130 stops is stopped in a lane out of OPEN and DRAINING. -/
theorem Lane.TimerSound.stopped (h : ln.TimerSound up) (ho : ln.ldu.state ≠ .open) (hd : ln.ldu.state ≠ .draining) :
    ln.ldu.timer = .stopped := by
  by_contra hx
  have := h hx
  rw [Lane.mayRun_iff] at this
  rcases this.2.1 with h | h
  · exact ho h
  · exact hd h

theorem Lane.TimerSound.of_stopped (h : ln.ldu.timer = .stopped) : ln.TimerSound up := fun hx => absurd h hx

theorem Lane.enterDraining_timer (l : LaneId) (now : Word) (ln : Lane) : (ln.enterDraining l now).ldu.timer = ln.ldu.timer := by
  rw [Lane.enterDraining_ldu]

theorem Lane.leaveStall_timer (l : LaneId) (now : Word) (ln : Lane) : (ln.leaveStall l now).ldu.timer = ln.ldu.timer := by
  unfold Lane.leaveStall
  split
  · split
    · exact Lane.enterDraining_timer _ _ _
    · rfl
  all_goals rfl

theorem Lane.leaveStall_retention (l : LaneId) (now : Word) (ln : Lane) :
    (ln.leaveStall l now).ldu.retention = ln.ldu.retention := by
  unfold Lane.leaveStall
  split
  · split
    · rw [Lane.enterDraining_ldu]
    · rfl
  all_goals rfl

theorem Lane.leaveStall_state (l : LaneId) (now : Word) (ln : Lane) :
    (ln.leaveStall l now).ldu.state =
      if ln.ldu.state = .stalled then (if ln.ldu.drainRequested then .draining else .open) else ln.ldu.state := by
  unfold Lane.leaveStall
  split
  · split
    · rw [Lane.enterDraining_ldu]
    · rfl
  · rename_i hs; simp [hs]
  · rename_i hs; simp [hs]
  · rename_i hs; simp [hs]

theorem Lane.TimerSound.leaveStall (h : ln.TimerSound up) (now : Word) : (ln.leaveStall l now).TimerSound up := by
  by_cases hs : ln.ldu.state = .stalled
  · apply Lane.TimerSound.of_stopped
    rw [Lane.leaveStall_timer]
    exact h.stopped (by rw [hs]; intro hx; cases hx) (by rw [hs]; intro hx; cases hx)
  · exact h.of_eq (Lane.leaveStall_timer _ _ _) (by rw [Lane.leaveStall_state]; simp [hs])
      (by rw [Lane.leaveStall_retention]; exact id)

theorem Lane.TimerSound.enterDraining (h : ln.TimerSound up) (now : Word) :
    (ln.enterDraining l now).TimerSound up := by
  intro hx
  rw [Lane.enterDraining_timer] at hx
  have := h hx
  rw [Lane.mayRun_iff] at this ⊢
  exact ⟨this.1, Or.inr (by rw [Lane.enterDraining_ldu]), by rw [Lane.enterDraining_ldu]; exact this.2.2⟩

theorem Lane.TimerSound.ackAdvance (h : ln.TimerSound up) (now : Word) (ack : SeqNo) : (ln.ackAdvance l up now ack).TimerSound up := by
  have settled : ∀ x : Lane, x.ldu.timer = ln.ldu.timer →
      (x.ldu.state = .open ∨ x.ldu.state = .draining ∨ ln.ldu.timer = .stopped) →
      (if x.ldu.retention.isEmpty then { x with ldu := { x.ldu with timer := .stopped } } else x.startTimer up now).TimerSound up := by
    intro x ht hst
    split
    · exact Lane.TimerSound.of_stopped rfl
    · rename_i hne
      apply Lane.TimerSound.startTimer
      intro hx
      rw [ht] at hx
      have := h hx
      rw [Lane.mayRun_iff] at this ⊢
      refine ⟨this.1, ?_, by simpa using hne⟩
      rcases hst with h | h | h
      · exact Or.inl h
      · exact Or.inr h
      · exact absurd h hx
  refine settled _ (Lane.leaveStall_timer _ _ _) ?_
  rw [Lane.leaveStall_state]
  dsimp only
  cases hs : ln.ldu.state
  · exact Or.inr (Or.inr (h.stopped (by rw [hs]; intro hx; cases hx) (by rw [hs]; intro hx; cases hx)))
  · simp
  · simp
  · cases ln.ldu.drainRequested <;> simp

theorem Lane.TimerSound.resendFrom (h : ln.TimerSound up) (now : Word) (x : SeqNo) : (ln.resendFrom l up now x).TimerSound up := by
  unfold Lane.resendFrom
  apply Lane.TimerSound.startTimer
  apply Lane.TimerSound.leaveStall
  exact h.of_eq rfl rfl id

theorem Lane.TimerSound.firstSend (h : ln.TimerSound up) (now : Word) (b : Bundle) (rest : List Bundle) :
    (ln.firstSend l up now b rest).TimerSound up := by
  unfold Lane.firstSend
  apply Lane.TimerSound.completePending
  split
  · apply Lane.TimerSound.startTimer
    exact h.of_eq rfl rfl (by intro _; simp)
  · exact h.of_eq rfl rfl (by intro _; simp)

theorem Lane.TimerSound.resend (h : ln.TimerSound up) (k : Nat) (b : Bundle) : (ln.resend k b).TimerSound up :=
  h.of_eq rfl rfl (by intro hx hy; exact hx (by simpa [Lane.resend] using hy))

theorem Lane.TimerSound.expire (h : ln.TimerSound up) (now : Word) : (ln.expire up now).1.TimerSound up := by
  unfold Lane.expire
  dsimp only
  split
  · apply Lane.TimerSound.startTimer
    exact h.of_eq rfl rfl id
  · exact Lane.TimerSound.of_stopped rfl

theorem Lane.TimerSound.toDisabled (ln : Lane) : ln.disabled.TimerSound up := Lane.TimerSound.of_stopped rfl

theorem Lane.TimerSound.started (h : ln.TimerSound up) (hs : ln.ldu.state = .disabled) : (ln.started l).TimerSound up :=
  Lane.TimerSound.of_stopped (h.stopped (by rw [hs]; intro hx; cases hx) (by rw [hs]; intro hx; cases hx))

theorem Lane.TimerSound.linkUp (h : ln.TimerSound false) (now : Word) : (ln.linkUp now).TimerSound true := by
  apply Lane.TimerSound.startTimer
  intro hx
  have := h hx
  simp [Lane.mayRun] at this

theorem Lane.TimerSound.linkDown (ln : Lane) : ln.linkDown.TimerSound up := Lane.TimerSound.of_stopped rfl

theorem Lane.TimerSound.tick (h : ln.TimerSound up) (now : Word) : (ln.tick now).TimerSound up :=
  fun hx => h (Timer.tick_stopped hx)

/-- Counting at a lane. -/
theorem Lane.Sound.counters (h : ln.Sound l) (x : AssemblyCounters) (y : LduCounters) :
    ({ asm := { ln.asm with counters := x }, ldu := { ln.ldu with counters := y } } : Lane).Sound l := { h with }

end Sys2Proof.Machine
end

