-- ==== Sys2Proof/Laws/LaneSteps.lean ====
section
/-! SUPPORT. Every shared operation over State keeps what holds of every lane and of its retransmit timer. -/

namespace Sys2Proof.Machine

/-- Every lane is sound, and so is its retransmit timer. -/
def State.LanesOk (s : State) : Prop := ∀ l, (s.lane l).Sound l ∧ (s.lane l).TimerSound s.trunk.linkUp

theorem State.LanesOk.of_eq {s t : State} (h : s.LanesOk) (hl : t.lanes = s.lanes) (hu : t.trunk.linkUp = s.trunk.linkUp) :
    t.LanesOk := by
  intro l
  have : t.lane l = s.lane l := by simp [State.lane, hl]
  rw [this, hu]
  exact h l

theorem State.LanesOk.setLane {s : State} (h : s.LanesOk) (l : LaneId) {x : Lane} (hx : x.Sound l)
    (ht : x.TimerSound s.trunk.linkUp) : (s.setLane l x).LanesOk := by
  intro k
  rw [State.lane_setLane_eq]
  split
  · rename_i he; subst he; exact ⟨hx, ht⟩
  · exact h k

/-! ## The link state through the operations -/

theorem State.discard_linkUp (l : LaneId) (s : State) (b : Bundle) : (s.discard l b).trunk.linkUp = s.trunk.linkUp := by
  unfold State.discard
  split
  · split
    · rfl
    · rw [State.freeCells_frame]
  · rw [State.freeCells_frame]

theorem State.discards_linkUp (l : LaneId) (bs : List Bundle) (s : State) :
    (bs.foldl (State.discard l) s).trunk.linkUp = s.trunk.linkUp := by
  induction bs generalizing s with
  | nil => rfl
  | cons b bs ih => rw [List.foldl_cons, ih, State.discard_linkUp]

theorem State.disableLane_linkUp (s : State) (l : LaneId) : (s.disableLane l).trunk.linkUp = s.trunk.linkUp := by
  unfold State.disableLane
  exact State.discards_linkUp _ _ _

theorem State.startResponse_linkUp (s : State) (r : Response) (rest : List Response) :
    (s.startResponse r rest).trunk.linkUp = s.trunk.linkUp := by
  unfold State.startResponse
  dsimp only
  split
  · rfl
  · split
    · simp only [State.endCommand, Trunk.placeResponse]; split <;> rfl
    · rfl

theorem State.arbitrate_linkUp (s : State) : s.arbitrate.trunk.linkUp = s.trunk.linkUp := by
  unfold State.arbitrate
  split
  · split
    · exact State.startResponse_linkUp _ _ _
    · split
      · rfl
      · split
        · rfl
        · split <;> rfl
  · rfl

theorem State.arbitrate_lanes (s : State) : s.arbitrate.lanes = s.lanes := by rw [State.arbitrate_frame]

theorem State.cutFrame_linkUp (s : State) : s.cutFrame.trunk.linkUp = s.trunk.linkUp := by
  unfold State.cutFrame; split <;> rfl

/-! ## The operations -/

theorem State.LanesOk.arbitrate {s : State} (h : s.LanesOk) : s.arbitrate.LanesOk :=
  h.of_eq s.arbitrate_lanes s.arbitrate_linkUp

theorem State.LanesOk.countAsm {s : State} (h : s.LanesOk) (l : LaneId) (f : AssemblyCounters → AssemblyCounters) :
    (s.countAsm l f).LanesOk := by
  apply h.setLane
  · exact (h l).1.counters _ _
  · exact (h l).2.of_eq rfl rfl id

theorem State.LanesOk.settled {s : State} (h : s.LanesOk) (l : LaneId) : (s.setLane l ((s.lane l).settle l)).LanesOk :=
  h.setLane l (h l).1.settle (h l).2.settle

theorem State.LanesOk.discards {s : State} (h : s.LanesOk) (l : LaneId) (bs : List Bundle) :
    (bs.foldl (State.discard l) s).LanesOk :=
  h.of_eq (by rw [State.discards_frame]) (State.discards_linkUp _ _ _)

theorem State.LanesOk.disableLane {s : State} (h : s.LanesOk) (l : LaneId) : (s.disableLane l).LanesOk := by
  unfold State.disableLane
  exact (h.discards l _).setLane l (h l).1.toDisabled (Lane.TimerSound.toDisabled _)

theorem State.LanesOk.drainCheck {s : State} (h : s.LanesOk) (l : LaneId) : (s.drainCheck l).LanesOk := by
  unfold State.drainCheck
  split
  · exact (h.disableLane l).of_eq rfl rfl
  · exact h

theorem Lane.not_offered_settle (l : LaneId) (ln : Lane) : (ln.settle l).offered = none := by
  unfold Lane.settle
  split
  · unfold Lane.handOff
    split <;> rfl
  · assumption

theorem Lane.not_offered_makeRoom (l : LaneId) (now : Word) (size : Nat) (ln : Lane) (h : ln.offered = none) :
    (ln.makeRoom l now size).offered = none := by
  unfold Lane.makeRoom
  split
  · split
    · exact Lane.not_offered_settle _ _
    · exact h
  · exact h

/-- After the bundle choice of R95 a record of at most 80 bytes fits the open bundle. -/
theorem Lane.Sound.fits_makeRoom {l : LaneId} {ln : Lane} (h : ln.Sound l) (now : Word) (size : Nat) (hsize : size ≤ 80)
    {b : Bundle} (hb : (ln.makeRoom l now size).asm.openB = some b) : 16 + b.payload + size ≤ ln.asm.config.maxBytes := by
  have hmax := h.limits.2.1
  have empty : b.payload = 0 → 16 + b.payload + size ≤ ln.asm.config.maxBytes := by intro hp; omega
  unfold Lane.makeRoom at hb
  split at hb
  · rename_i x hx
    split at hb
    · rename_i hc
      unfold Lane.closeNow Lane.settle at hb
      split at hb
      · unfold Lane.handOff at hb
        split at hb
        · simp only [Option.some.injEq] at hb
          subst hb
          exact empty rfl
        · simp at hb
      · rename_i hoff
        exfalso
        have : (ln.close now .fill).asm.openB = some b := hb
        unfold Lane.close at this hoff
        rw [hx] at this hoff
        dsimp only at this hoff
        split at hoff
        · simp [Lane.offered] at hoff
        · rename_i hn
          have hcr : x.closeReason ≠ none := fun hcr => hn ⟨hc.1, hcr⟩
          simp only [Lane.offered, hx] at hoff
          rw [if_pos (by simpa [Option.isSome_iff_ne_none] using hcr)] at hoff
          cases hoff
    · rename_i hc
      rw [hx] at hb
      cases hb
      by_cases hr : b.records = []
      · apply empty
        rw [(h.bundle_open hx).payload, hr]
        rfl
      · have : ln.fits b size = true := by
          by_contra hf
          exact hc ⟨hr, by simpa using hf⟩
        simpa [Lane.fits, Bundle.size] using of_decide_eq_true this
  · rename_i hx
    exact absurd hb (by rw [hx]; simp)

theorem State.allocate_lanes {s s' : State} {n : Nat} (h : s.allocate n = some s') : s'.lanes = s.lanes := by
  rw [State.allocate_frame _ _ _ h]

theorem State.allocate_trunk {s s' : State} {n : Nat} (h : s.allocate n = some s') : s'.trunk = s.trunk := by
  rw [State.allocate_frame _ _ _ h]

theorem Lane.makeRoom_config (l : LaneId) (now : Word) (size : Nat) (ln : Lane) :
    (ln.makeRoom l now size).asm.config = ln.asm.config := by
  have hs : ∀ x : Lane, (x.settle l).asm.config = x.asm.config := by
    intro x
    unfold Lane.settle
    split
    · unfold Lane.handOff; split <;> rfl
    · rfl
  unfold Lane.makeRoom
  split
  · split
    · unfold Lane.closeNow
      rw [hs]
      unfold Lane.close
      split
      · split <;> rfl
      · rfl
    · rfl
  · rfl

theorem State.LanesOk.place {s : State} (h : s.LanesOk) (l : LaneId) (q : PlacementRequest) (hsize : q.record.size ≤ 80) :
    (s.place l q).1.LanesOk := by
  have full : ∀ t : State, t.LanesOk → (t.answerLaneFull l).1.LanesOk := by
    intro t ht
    exact (ht.countAsm l fun c => { c with dropLaneFull := satInc c.dropLaneFull }).of_eq rfl rfl
  have h0 := h.settled l
  unfold State.place
  dsimp only
  generalize hs0 : s.setLane l ((s.lane l).settle l) = s0 at h0
  have hoff : (s0.lane l).offered = none := by rw [← hs0, State.lane_setLane]; exact Lane.not_offered_settle _ _
  have rest : (if (s0.lane l).closePending then s0.answerLaneFull l
      else
        let s' := s0.setLane l ((s0.lane l).makeRoom l s0.deviceTime q.record.size)
        match (s'.lane l).asm.openB with
        | some b => s'.placeInto l b q
        | none => s'.answerLaneFull l).1.LanesOk := by
    split
    · exact full _ h0
    · have h1 : (s0.setLane l ((s0.lane l).makeRoom l s0.deviceTime q.record.size)).LanesOk :=
        h0.setLane l ((h0 l).1.makeRoom _ _) ((h0 l).2.makeRoom _ _)
      dsimp only
      split
      · rename_i b hb
        have hoff1 : ((s0.setLane l ((s0.lane l).makeRoom l s0.deviceTime q.record.size)).lane l).offered = none := by
          rw [State.lane_setLane]; exact Lane.not_offered_makeRoom _ _ _ _ hoff
        have hfit : 16 + b.payload + q.record.size ≤
            ((s0.setLane l ((s0.lane l).makeRoom l s0.deviceTime q.record.size)).lane l).asm.config.maxBytes := by
          rw [State.lane_setLane, Lane.makeRoom_config]
          rw [State.lane_setLane] at hb
          exact (h0 l).1.fits_makeRoom _ _ hsize hb
        generalize s0.setLane l ((s0.lane l).makeRoom l s0.deviceTime q.record.size) = s1 at h1 hb hoff1 hfit ⊢
        unfold State.placeInto
        dsimp only
        split
        · apply State.LanesOk.countAsm
          exact h1.of_eq rfl rfl
        · rename_i s2 ha
          have h2 : s2.LanesOk := h1.of_eq (State.allocate_lanes ha) (by rw [State.allocate_trunk ha])
          have hl : s2.lane l = s1.lane l := by simp [State.lane, State.allocate_lanes ha]
          apply h2.setLane
          · rw [hl]; exact (h1 l).1.placed hb hoff1 _ _ _ hfit
          · exact (h2 l).2.placed _ _ _ _ _
      · exact full _ h1
  split
  · exact h0.countAsm l _
  · exact h0.countAsm l _
  · exact rest
  · exact rest

theorem State.LanesOk.applyAck {s : State} (h : s.LanesOk) (l : LaneId) (ack : SeqNo)
    (hv : distance (s.lane l).ldu.a ack ≤ distance (s.lane l).ldu.a (s.lane l).ldu.s) (hd : (s.lane l).ldu.state ≠ .disabled) :
    (s.applyAck l ack).LanesOk := by
  unfold State.applyAck
  dsimp only
  split
  · exact h
  · apply (h.discards l _).setLane
    · exact (h l).1.ackAdvance _ _ _ hv hd
    · rw [State.discards_linkUp]; exact (h l).2.ackAdvance _ _

theorem Lane.ackAdvance_ldu (l : LaneId) (up : Bool) (now : Word) (ack : SeqNo) (ln : Lane) :
    ∃ st, ((ln.ackAdvance l up now ack).ldu.state = st) ∧
      (st = ln.ldu.state ∨ (ln.ldu.state = .stalled ∧ (st = .open ∨ st = .draining))) := by
  have settled : ∀ x : Lane,
      (if x.ldu.retention.isEmpty then { x with ldu := { x.ldu with timer := .stopped } }
        else x.startTimer up now).ldu.state = x.ldu.state := by
    intro x
    split
    · rfl
    · unfold Lane.startTimer; split <;> rfl
  refine ⟨_, settled _, ?_⟩
  rw [Lane.leaveStall_state]
  dsimp only
  split
  · rename_i hs
    right
    refine ⟨hs, ?_⟩
    split
    · exact Or.inr rfl
    · exact Or.inl rfl
  · exact Or.inl rfl

theorem State.applyAck_state {s : State} (l : LaneId) (ack : SeqNo) (hd : (s.lane l).ldu.state ≠ .disabled) :
    ((s.applyAck l ack).lane l).ldu.state ≠ .disabled := by
  unfold State.applyAck
  dsimp only
  split
  · exact hd
  · rw [State.lane_setLane]
    obtain ⟨st, h1, h2⟩ := Lane.ackAdvance_ldu l s.trunk.linkUp s.deviceTime ack (s.lane l)
    rw [h1]
    rcases h2 with h2 | ⟨_, h2 | h2⟩
    · rw [h2]; exact hd
    · rw [h2]; intro hx; cases hx
    · rw [h2]; intro hx; cases hx

theorem State.LanesOk.applyGrant {s : State} (h : s.LanesOk) (l : LaneId) (g : SeqNo) (hd : (s.lane l).ldu.state ≠ .disabled) :
    (s.applyGrant l g).LanesOk := by
  have h' : (s.setLane l { s.lane l with ldu := (s.lane l).ldu.afterGrant g }).LanesOk := by
    apply h.setLane
    · exact (h l).1.afterGrant g hd
    · apply (h l).2.of_eq
      · show ((s.lane l).ldu.afterGrant g).timer = _; rw [Ldu.afterGrant_eq]
      · show ((s.lane l).ldu.afterGrant g).state = _; rw [Ldu.afterGrant_eq]
      · show _ → ((s.lane l).ldu.afterGrant g).retention ≠ []; rw [Ldu.afterGrant_eq]; exact id
  unfold State.applyGrant
  dsimp only
  split
  · exact h'.of_eq rfl rfl
  · exact h'
  · exact h'

theorem State.applyGrant_state {s : State} (l : LaneId) (g : SeqNo) :
    ((s.applyGrant l g).lane l).ldu.state = (s.lane l).ldu.state := by
  have h' : ((s.setLane l { s.lane l with ldu := (s.lane l).ldu.afterGrant g }).lane l).ldu.state = (s.lane l).ldu.state := by
    rw [State.lane_setLane]
    show ((s.lane l).ldu.afterGrant g).state = _
    rw [Ldu.afterGrant_eq]
  unfold State.applyGrant
  dsimp only
  split
  · exact h'
  · exact h'
  · exact h'

theorem State.LanesOk.applyResend {s : State} (h : s.LanesOk) (l : LaneId) (x : Option SeqNo)
    (hd : (s.lane l).ldu.state ≠ .disabled) : (s.applyResend l x).LanesOk := by
  unfold State.applyResend
  split
  · split
    · rename_i hr
      exact h.setLane l ((h l).1.resendFrom _ _ _ hr hd) ((h l).2.resendFrom _ _)
    · exact h
  · exact h

theorem State.LanesOk.refuseUpdate {s : State} (h : s.LanesOk) : s.refuseUpdate.LanesOk := h.of_eq rfl rfl

theorem State.LanesOk.applyUpdate {s : State} (h : s.LanesOk) (u : LaneUpdate) (hd : (s.lane u.lane).ldu.state ≠ .disabled) :
    (s.applyUpdate u).LanesOk := by
  unfold State.applyUpdate
  dsimp only
  split
  · exact h.refuseUpdate
  · rename_i hv
    have h1 := h.applyAck u.lane u.ack (by omega) hd
    have d1 := State.applyAck_state u.lane u.ack hd
    have h2 := h1.applyGrant u.lane u.grant d1
    have d2 := State.applyGrant_state (s := s.applyAck u.lane u.ack) u.lane u.grant
    have h3 := h2.applyResend u.lane u.resendFrom (by rw [d2]; exact d1)
    split
    · exact h3.refuseUpdate.drainCheck _
    · exact h3.drainCheck _

/-- An eligible lane is OPEN or DRAINING (R124). -/
theorem State.eligible_state {s : State} {l : LaneId} (h : s.eligible l = true) : (s.lane l).ldu.state ≠ .disabled := by
  intro hd
  simp [State.eligible, hd] at h

theorem State.LanesOk.sendStartAt {s t : State} (h : s.LanesOk) (l : LaneId) (ht : s.sendStartAt l = some t) : t.LanesOk := by
  unfold State.sendStartAt at ht
  dsimp only at ht
  split at ht
  · cases ht
  · rename_i hc
    have he : s.eligible l = true := by
      by_contra hx
      exact hc (by simp [hx])
    have hd := State.eligible_state he
    split at ht
    · rename_i hw
      split at ht
      · rename_i b hb
        cases ht
        have := h.setLane l ((h l).1.resend hb hw hd) ((h l).2.resend _ b)
        exact this.of_eq rfl rfl
      · cases ht
    · rename_i hnw
      split at ht
      · rename_i heq
        split at ht
        · rename_i b rest hr
          cases ht
          have hf : (s.lane l).ldu.firstSendReady = true := by
            simp only [State.eligible, Bool.and_eq_true, Bool.or_eq_true] at he
            rcases he.2 with h | h
            · exact absurd h hnw
            · exact h
          have := h.setLane l ((h l).1.firstSend s.trunk.linkUp s.deviceTime hr heq hf hd) ((h l).2.firstSend s.deviceTime b rest)
          exact this.of_eq rfl rfl
        · cases ht
      · cases ht

theorem State.LanesOk.clearWire {s : State} (h : s.LanesOk) : s.clearWire.LanesOk :=
  h.of_eq (by rw [State.clearWire_frame]) (by rw [State.clearWire_trunk])

theorem State.LanesOk.cutFrame {s : State} (h : s.LanesOk) : s.cutFrame.LanesOk := by
  unfold State.cutFrame
  split
  · rename_i l _ _ _
    refine State.LanesOk.setLane (s := { s with trunk := _ }) (h.of_eq rfl rfl) l ?_ ?_
    · exact (h l).1.counters _ _
    · exact (h l).2.of_eq rfl rfl id
  · exact h

theorem State.LanesOk.beginDrain {s : State} (h : s.LanesOk) (l : LaneId) (ho : (s.lane l).ldu.state = .open) :
    (s.beginDrain l).LanesOk := by
  unfold State.beginDrain
  apply State.LanesOk.drainCheck
  have hs : (s.lane l).ldu.state ≠ .stalled := by rw [ho]; intro hx; cases hx
  apply h.setLane
  · apply (h l).1.enterDraining
    · rw [ho]; intro hx; cases hx
    · exact (h l).1.retries.2.2 hs
    · by_contra hx
      exact hs ((h l).1.drain (by simpa using hx))
  · exact (h l).2.enterDraining _

theorem State.LanesOk.resetLane {s : State} (h : s.LanesOk) (l : LaneId) : (s.resetLane l).LanesOk := by
  unfold State.resetLane
  apply State.LanesOk.disableLane
  split
  · exact h.cutFrame
  · exact h

theorem State.LanesOk.disableAll {s : State} (h : s.LanesOk) (ls : List LaneId) : (ls.foldl State.disableLane s).LanesOk := by
  induction ls generalizing s with
  | nil => exact h
  | cons l ls ih => exact ih (h.disableLane l)

theorem State.LanesOk.clearOwner {s : State} (h : s.LanesOk) (o : CounterOwner) : (s.clearOwner o).LanesOk := by
  cases o with
  | assembler l => exact h.countAsm l _
  | ldu l => exact h.setLane l ((h l).1.counters _ _) ((h l).2.of_eq rfl rfl id)
  | _ => exact h.of_eq rfl rfl

theorem State.LanesOk.readOwner {s : State} (h : s.LanesOk) (c : Command) (clear : Bool) (left : List CounterOwner)
    (result : List Byte) : (s.readOwner c clear left result).LanesOk := by
  cases left with
  | nil => exact h.of_eq rfl rfl
  | cons o rest =>
    rw [State.readOwner_cons]
    cases clear
    · exact h.of_eq rfl rfl
    · exact (h.clearOwner o).of_eq rfl rfl

end Sys2Proof.Machine
end

