-- ==== Sys2Proof/Laws/Streams.lean ====
section
/-! SUPPORT. What the searches of the stream table and of the rule list find, in the words of Safety.lean. -/

namespace Sys2Proof.Machine

variable {α : Type} {p : α → Bool} {x : α}

/-- The first element of a list that satisfies a test, by its place. -/
theorem find_eq_some_of_getElem {xs : List α} (i : Nat) (hi : xs[i]? = some x) (hx : p x = true)
    (hlt : ∀ j y, j < i → xs[j]? = some y → p y = false) : xs.find? p = some x := by
  induction xs generalizing i with
  | nil => simp at hi
  | cons y ys ih =>
    cases i with
    | zero => simp at hi; subst hi; simp [hx]
    | succ i =>
      have hy : p y = false := hlt 0 y (by omega) rfl
      rw [List.find?_cons, hy]
      exact ih i (by simpa using hi) fun j z hj hz => hlt (j + 1) z (by omega) (by simpa using hz)

theorem finRange_getElem {n : Nat} (j : Nat) (h : j < n) : (List.finRange n)[j]? = some ⟨j, h⟩ := by
  rw [List.getElem?_eq_getElem (by simpa using h)]
  simp

theorem Key.slots_getElem (k : Key) (j : Nat) (hj : j < 4) : ∃ n, k.slots[j]? = some n ∧ n.val = 4 * k.bucket + j := by
  unfold Key.slots
  rw [List.getElem?_map, finRange_getElem j hj]
  exact ⟨_, rfl, rfl⟩

theorem Key.inBucket_iff (k : Key) (n : StreamNo) : k.inBucket n ↔ ∃ j, j < 4 ∧ n.val = 4 * k.bucket + j := by
  unfold Key.inBucket Key.bucket
  constructor
  · intro h; exact ⟨n.val % 4, Nat.mod_lt _ (by omega), by omega⟩
  · rintro ⟨j, hj, h⟩; omega

theorem Key.mem_slots (k : Key) (n : StreamNo) : n ∈ k.slots ↔ k.inBucket n := by
  rw [Key.inBucket_iff, List.mem_iff_getElem?]
  constructor
  · rintro ⟨j, hj⟩
    have h4 : j < 4 := by
      by_contra h
      have : k.slots.length = 4 := by simp [Key.slots]
      rw [List.getElem?_eq_none (by omega)] at hj
      cases hj
    obtain ⟨m, hm, hv⟩ := k.slots_getElem j h4
    rw [hm] at hj; cases hj
    exact ⟨j, h4, hv⟩
  · rintro ⟨j, hj, h⟩
    obtain ⟨m, hm, hv⟩ := k.slots_getElem j hj
    exact ⟨j, by rw [hm]; congr 1; exact Fin.ext (by omega)⟩

/-- A search of the bucket finds the lowest slot that satisfies the test. -/
theorem Key.find_slots {p : StreamNo → Bool} (k : Key) (n : StreamNo) (hb : k.inBucket n) (hn : p n = true)
    (hlt : ∀ m, k.inBucket m → m < n → p m = false) : k.slots.find? p = some n := by
  obtain ⟨j, hj, hv⟩ := (k.inBucket_iff n).mp hb
  obtain ⟨m, hm, hmv⟩ := k.slots_getElem j hj
  obtain rfl : m = n := Fin.ext (by omega)
  refine find_eq_some_of_getElem j hm hn ?_
  intro i y hi hy
  obtain ⟨z, hz, hzv⟩ := k.slots_getElem i (by omega)
  rw [hz] at hy; cases hy
  exact hlt y ((k.inBucket_iff y).mpr ⟨i, by omega, hzv⟩) (Fin.lt_def.mpr (by omega))

theorem Key.find_slots_none {p : StreamNo → Bool} (k : Key) (h : ∀ m, k.inBucket m → p m = false) : k.slots.find? p = none := by
  rw [List.find?_eq_none]
  intro m hm
  simp [h m ((k.mem_slots m).mp hm)]

theorem StreamTable.find_eq {t : StreamTable} {k : Key} {n : StreamNo} {e : StreamEntry} (h : t.HasKey k n e) :
    t.find k = some n := by
  obtain ⟨hb, he, hk, hlt⟩ := h
  refine k.find_slots n hb (by simp [StreamTable.holds, he, hk]) fun m hm hmn => ?_
  unfold StreamTable.holds
  split
  · rename_i f hf; simpa using hlt m f hm hmn hf
  · rfl

theorem StreamTable.find_none {t : StreamTable} {k : Key} (h : t.LacksKey k) : t.find k = none := by
  refine k.find_slots_none fun m hm => ?_
  unfold StreamTable.holds
  split
  · rename_i f hf; simpa using h m f hm hf
  · rfl

theorem StreamTable.freeSlot_eq {t : StreamTable} {k : Key} {n : StreamNo} (h : t.FirstFree k n) : t.freeSlot k = some n := by
  obtain ⟨hb, he, hlt⟩ := h
  refine k.find_slots n hb (by simp [he]) fun m hm hmn => ?_
  have := hlt m hm hmn
  cases hx : (t.slot m).entry <;> simp_all

theorem StreamTable.freeSlot_none {t : StreamTable} {k : Key} (h : t.BucketFull k) : t.freeSlot k = none := by
  refine k.find_slots_none fun m hm => ?_
  have := h m hm
  cases hx : (t.slot m).entry <;> simp_all

/-- A lookup of a key that a slot holds answers with the snapshot of its entry (R33). -/
theorem StreamTable.lookup_eq {t : StreamTable} {k : Key} {n : StreamNo} {e : StreamEntry} (h : t.HasKey k n e) :
    t.lookup k = some (snapshotOf n (t.slot n).generation e) := by
  unfold StreamTable.lookup
  rw [StreamTable.find_eq h]
  simp [h.2.1]

theorem StreamTable.lookup_none {t : StreamTable} {k : Key} (h : t.LacksKey k) : t.lookup k = none := by
  unfold StreamTable.lookup
  rw [StreamTable.find_none h]

/-- A mask comparison by bits: the masked values agree exactly when the bits agree where the mask has a one (R52). -/
theorem masked_eq_iff {w : Nat} (x v m : BitVec w) :
    ((x &&& m) == (v &&& m)) = true ↔ ∀ b, m.getLsbD b = true → x.getLsbD b = v.getLsbD b := by
  rw [beq_iff_eq]
  constructor
  · intro h b hb
    have := congrArg (fun y => y.getLsbD b) h
    simpa [hb] using this
  · intro h
    apply BitVec.eq_of_getLsbD_eq
    intro i hi
    simp only [BitVec.getLsbD_and]
    cases hm : m.getLsbD i
    · simp
    · simp [h i hm]

theorem Rule.isMatch_iff (rule : Rule) (k : Key) : rule.isMatch k = true ↔ rule.Matches k := by
  unfold Rule.isMatch Rule.Matches
  rw [Bool.and_eq_true, Bool.and_eq_true, masked_eq_iff, masked_eq_iff, and_assoc]

theorem RuleSet.search_eq {rs : RuleSet} {k : Key} {i : RuleIndex} (h : rs.Selects k i) : rs.search k = some i := by
  obtain ⟨hv, hm, hlt⟩ := h
  refine find_eq_some_of_getElem i.val (finRange_getElem _ i.isLt) (by simp only [Bool.and_eq_true]; exact ⟨hv, (Rule.isMatch_iff _ _).mpr hm⟩) ?_
  intro j y hj hy
  have hj64 : j < 64 := by omega
  rw [finRange_getElem j hj64, Option.some.injEq] at hy
  have := hlt y (by subst hy; exact Fin.lt_def.mpr hj)
  rw [← Rule.isMatch_iff, ← Bool.and_eq_true] at this
  simpa using this

theorem RuleSet.search_none {rs : RuleSet} {k : Key} (h : ∀ i : RuleIndex, ¬ (rs.active[i].valid = true ∧ rs.active[i].Matches k)) :
    rs.search k = none := by
  unfold RuleSet.search
  rw [List.find?_eq_none]
  intro i _
  rw [Bool.and_eq_true, Rule.isMatch_iff]
  exact h i

end Sys2Proof.Machine
end

