-- ==== Sys2Proof/Tests/Slice0.lean ====
section
/-! SUPPORT. Small tests: the WellFormed smoke, values the spec works out, one step or two of each command, and for each statement states and operands that meet its hypotheses. -/

namespace Sys2Proof.Tests

open Sys2Proof.Machine

set_option Elab.async false

/-! ## WellFormed refuses what names no port and no lane -/

theorem test_wellFormed_port_8 : Instr.wellFormed (.lineSignalGained 8) = false ∧ Instr.wellFormed (.lineSignalLost 8) = false
    ∧ Instr.wellFormed (.fieldStartDelimiter 8) = false ∧ Instr.wellFormed (.fieldByteArrival 8 0) = false
    ∧ Instr.wellFormed (.fieldEndDelimiter 8) = false ∧ Instr.wellFormed (.fieldEndDelimiter 7) = true := by decide

theorem test_wellFormed_lane_16 : Instr.wellFormed (.handoff 16) = false ∧ Instr.wellFormed (.idleTimerExpiry 16) = false
    ∧ Instr.wellFormed (.ageTimerExpiry 16) = false ∧ Instr.wellFormed (.retransmitTimerExpiry 16) = false
    ∧ Instr.wellFormed (.handoff 15) = true := by decide

/-! ## Values -/

/-- The check value of this frame check over the nine characters 1 to 9. -/
theorem test_frameCheck_of_the_digits :
    frameCheck [0x31, 0x32, 0x33, 0x34, 0x35, 0x36, 0x37, 0x38, 0x39] = 0xFC891918#32 := by decide +kernel

/-- The worked check of R1: 4 is newer than 65530, at distance 10. -/
theorem test_modular_comparison : distance (65530#16) 4#16 = 10 ∧ isNewer (4#16) 65530#16 = true ∧ isOlder (65530#16) 4#16 = true
    ∧ isNewer (0#32) 0x80000000#32 = false ∧ isOlder (0#32) 0x80000000#32 = false := by decide

/-- The key fold of R27 for port 3, station 012345h, tag 0102h. -/
theorem test_bucket : Key.bucket ⟨3, 0x012345, 0x0102⟩ = 328 := by decide

/-- The spread fold of R59 for station 012345h and salt 0F00h. -/
theorem test_spreadFold : spreadFold 0x012345 0x0F00 = 33 := by decide

/-- R2: a saturating counter adds one, and stays at its largest value. -/
theorem test_satInc : satInc (7#32) = 8 ∧ satInc (0xFFFFFFFF#32) = 0xFFFFFFFF ∧ satInc (0xFFFF#16) = 0xFFFF := by decide

/-- R75: one cell to 48 payload bytes, two from 49. -/
theorem test_cells : cellsFor 48 = 1 ∧ cellsFor 49 = 2 ∧ cellsFor 4080 = 64 := by decide

/-! ## Small states -/

/-- The state after reset with the link UP and session 1 open. -/
def up : State := { State.reset with
  trunk := { linkUp := true, unit := 5 }
  mu := { epoch := some 1, lastEpoch := 1 } }

/-- The command frame of the tests. -/
def command (code : Byte) (params : List Byte) : Command := ⟨1, 7, code, params⟩

/-- A state with one command queued. -/
def queued (code : Byte) (params : List Byte) (s : State) : State := { s with mu := { s.mu with queue := [command code params] } }

theorem queued_begins (code : Byte) (params : List Byte) (s : State) (hr : s.resetN = true) (he : s.mu.executing = none) :
    (queued code params s).begins code (command code params) [] := ⟨hr, he, rfl, rfl⟩

/-- The state in which a queued command has its outcome ready. -/
def executing (p : Progress) (s : State) : State := { s with mu := { s.mu with executing := some ⟨command 4 [], p⟩ } }

/-- What a step of one command leaves, seen through one view. -/
def see {α : Type} (i : Instr) (s : State) (view : State → α) : Option α :=
  match exec i s with
  | .next t => some (view t)
  | .fault _ => none
  | .refused _ => none

/-- The status and result bytes that a command has ready. -/
def answer (i : Instr) (s : State) : Option (Status × List Byte) :=
  match exec i s with
  | .next t => match t.mu.executing with
    | some ⟨_, .done r⟩ => some (r.status, r.result)
    | _ => none
  | .fault _ => none
  | .refused _ => none

/-- A field frame of one station, with its check. -/
def fieldFrame (records : List FieldRecord) : List Byte :=
  withCheck (enc24 0x012345 ++ [0x01] ++ enc8 records.length ++ records.flatMap FieldRecord.encode)

/-- A record of four bytes. -/
def record : FieldRecord := ⟨0x0102, 50, [1, 2, 3, 4]⟩

/-- The key of that record at port 3; its bucket is 328, its first slot 1312. -/
def key3 : Key := ⟨3, 0x012345, 0x0102⟩

/-- A stream entry of that key. -/
def entry : StreamEntry := { key := key3, cls := 2, decimation := some 3, stale := .dropNotNewer, urgent := true, learned := false }

/-- A state whose Classifier works on that record at a stage, with abandon or without. -/
def staged (st : Stage) (s : State) : State :=
  { s with classifier := { s.classifier with frame := some ⟨3, 0x012345, [record], 0, st⟩ } }

/-- A state whose stream table holds that entry. -/
def known (s : State) : State := { s with streams := s.streams.setSlot 1312 ⟨9, some entry⟩ }

/-- A snapshot of that entry. -/
def snap : Snapshot := snapshotOf 1312 9 entry

/-- The record in its bound form, of 12 encoded bytes. -/
def placed : PlacedRecord := .bound 1312 50 [1, 2, 3, 4]

/-- A bundle of lane 2 that holds it. -/
def filled : Bundle := { lane := 2, records := [placed], payload := 12, cells := 1, openTime := some 0 }

/-- The same bundle closed. -/
def closed : Bundle := { filled with closeTime := some 9, closeReason := some .count }

/-- The same bundle under a sequence. -/
def numberedBundle (state : BundleState) (q : SeqNo) : Bundle := { closed with state, seq := some q }

/-- Lane 2 with an Assembler and an LDU. -/
def lane2 (asm : Assembler) (ldu : Ldu) (s : State) : State := s.setLane 2 ⟨asm, ldu⟩

/-- An OPEN lane that has a bundle with records, its idle timer reached at time 0 and its age timer not. -/
def assembling (s : State) : State :=
  lane2 { openB := some filled, idle := .running 0 false, age := .running 10000 false } { state := .open } s

/-- An OPEN lane with bundle 0 sent and retained, its retransmit timer reached, bundle 1 ready, and a grant up to 2. -/
def sending (s : State) : State :=
  lane2 { openB := some (Bundle.fresh 2) }
    { state := .open, r := 1, s := 1, c := 2, g := 2, ready := [numberedBundle .ready 1],
      retention := [numberedBundle .sent 0], timer := .running 0 false } s

/-- A bundle frame of lane 2 on the wire. -/
def onTheWire (mode : TxMode) (carried : WireBundle) (s : State) : State :=
  { s with trunk := { s.trunk with outbound := some (.bundle 2 mode carried []) } }

/-- A response with nothing to report. -/
def response : Response := ⟨7, 4, .ok, false, []⟩

/-! ## One step of each command -/

theorem test_powerOnReset : see .powerOnReset ((up.setPort 3 { signal := true, state := .up, badCount := 5 }).setLine 3 true)
    (fun t => (t.resetN, t.port 3, t.line 3, t.trunk.unit, t.mu.epoch)) = some (false, { signal := true }, true, 5, none) := by decide +kernel

/-- A full-length reset ends the undetermined state of a short one: each indication is that of its line again (R5, R206). -/
theorem test_powerOnReset_afterShortReset (s : State) (p : PortId) :
    see .powerOnReset (Config.undeterminedState s.freeCount) (fun t => (t.port p).signal)
      = some ((Config.undeterminedState s.freeCount).line p) := by
  revert p
  generalize Config.undeterminedState s.freeCount = u
  intro p
  simp [see, exec, execPowerOnReset, State.powerOn, State.port, State.line]

theorem test_resetRelease : see (.resetRelease 9 10) { up with resetN := false } (fun t => (t.resetN, t.trunk.unit)) = some (true, 9) := by
  decide +kernel

theorem test_lineSignalGained : see (.lineSignalGained 7) (up.setPort 7 { state := .down }) (fun t => ((t.port 7).state, (t.port 7).signal, t.line 7))
    = some (.up, true, true) := by decide +kernel

theorem test_lineSignalLost : see (.lineSignalLost 0) (up.setPort 0 { state := .up, signal := true, reception := some (.accept [1, 2]) })
    (fun t => ((t.port 0).state, (t.port 0).signal, (t.port 0).reception, (t.port 0).counters.truncated))
    = some (.down, false, none, 1) := by decide +kernel

theorem test_fieldStartDelimiter : see (.fieldStartDelimiter 0) (up.setPort 0 { state := .up, signal := true })
    (fun t => (t.port 0).reception) = some (some (.accept [])) := by decide +kernel

theorem test_fieldByteArrival : see (.fieldByteArrival 0 9) (up.setPort 0 { state := .up, reception := some (.accept [8]) })
    (fun t => ((t.port 0).reception, (t.port 0).fill)) = some (some (.accept [8, 9]), 2) := by decide +kernel

theorem test_fieldByteArrival_overflow : see (.fieldByteArrival 0 9)
    (up.setPort 0 { state := .up, taken := some (List.replicate 4096 0), reception := some (.accept []), fifoHigh := true })
    (fun t => ((t.port 0).reception, (t.port 0).counters.overflows, t.notices.queue.length)) = some (some .spent, 1, 1) := by
  decide +kernel

theorem test_fieldEndDelimiter_good : see (.fieldEndDelimiter 3)
    (up.setPort 3 { state := .up, badCount := 4, reception := some (.accept (fieldFrame [record])) })
    (fun t => ((t.port 3).complete, (t.port 3).badCount, (t.port 3).counters.framesOk)) = some ([fieldFrame [record]], 0, 1) := by
  decide +kernel

theorem test_fieldEndDelimiter_bad : see (.fieldEndDelimiter 3)
    (up.setPort 3 { state := .up, badCount := 15, reception := some (.accept (List.replicate 11 0)) })
    (fun t => ((t.port 3).state, (t.port 3).badCount, (t.port 3).counters.checkErrors, t.notices.queue.map (·.kind)))
    = some (.fault, 16, 1, [.portFault]) := by decide +kernel

theorem test_frameTake : see .frameTake (up.setPort 3 { state := .up, complete := [fieldFrame [record]] })
    (fun t => (t.classifier.frame, t.classifier.position, (t.port 3).counters.recordsSeen))
    = some (some ⟨3, 0x012345, [record], 0, .lookup⟩, 4, 1) := by decide +kernel

theorem test_frameTake_malformed : see .frameTake (up.setPort 3 { state := .up, complete := [fieldFrame []] })
    (fun t => (t.classifier.frame, t.classifier.position, (t.port 3).counters.malformed, (t.port 3).fill)) = some (none, 4, 1, 0) := by
  decide +kernel

theorem test_lookup_hit : see .lookup (staged .lookup (known up)) (fun t => t.classifier.frame.map (·.stage))
    = some (some (.resolve (.bound snap 50 1))) := by decide +kernel

theorem test_lookup_miss : see .lookup (staged .lookup up) (fun t => t.classifier.frame.map (·.stage)) = some (some .ruleSearch) := by
  decide +kernel

/-- A valid rule for every record of port 3. -/
def rule3 : Rule := { valid := true, portSet := 0x08, action := .place, cls := 2, learn := true, stale := .dropOlder }

/-- A state with one active rule. -/
def ruled (i : RuleIndex) (r : Rule) (s : State) : State := { s with rules := { s.rules with active := s.rules.active.set i.val r i.isLt } }

theorem test_ruleSearch : see .ruleSearch (staged .ruleSearch (ruled 63 rule3 up)) (fun t => t.classifier.frame.map (·.stage))
    = some (some (.learn 63 2 .dropOlder)) := by decide +kernel

theorem test_ruleSearch_none : see .ruleSearch (staged .ruleSearch up)
    (fun t => (t.classifier.frame, (t.port 3).counters.noMatch, t.trunk.request)) = some (none, 1, .batch) := by decide +kernel

theorem test_learnInsert : see .learnInsert (staged (.learn 63 2 .dropOlder) up)
    (fun t => (t.classifier.frame.map (·.stage), (t.streams.slot 1312).generation, t.streams.learned))
    = some (some (.resolve (.bound ⟨1312, 1, 2, .dropOlder, false, 1, none, 0⟩ 50 0)), 1, 1) := by decide +kernel

/-- A state with class 2 FIXED to lane 2, or SPREAD over the entries from 32 on. -/
def mapped (r : ClassRecord) (s : State) : State := { s with map := { s.map with classes := s.map.classes.set 2 r } }

theorem test_laneResolution_fixed : see .laneResolution (staged (.resolve (.bound snap 50 1)) (mapped (.fixed 2) up))
    (fun t => t.classifier.frame.map (·.stage)) = some (some (.place (.bound snap 50 1) 2)) := by decide +kernel

theorem test_laneResolution_noLane : see .laneResolution (staged (.resolve (.unbound 63 2)) (mapped (.spread 32 32) up))
    (fun t => (t.classifier.frame, t.classifier.noLaneDrops)) = some (none, 1) := by decide +kernel

theorem test_placement : see .placement (staged (.place (.bound snap 50 1) 2) (assembling up))
    (fun t => (t.classifier.frame.map (·.stage), (t.lane 2).asm.openB.map (·.closeReason), (t.lane 2).asm.counters.closeUrgent, t.pool.free))
    = some (some (.update ⟨1312, 9, .accepted, some 50, some 1⟩), some (some .urgent), 1, 4096) := by decide +kernel

theorem test_placement_disabled : see .placement (staged (.place (.unbound 63 2) 2) up)
    (fun t => (t.classifier.frame, (t.lane 2).asm.counters.dropDisabled)) = some (none, 1) := by decide +kernel

theorem test_handoff : see (.handoff 2) (lane2 { openB := some closed } { state := .open, c := 65535, s := 65535 } up)
    (fun t => ((t.lane 2).ldu.c, (t.lane 2).ldu.ready.map (·.seq), (t.lane 2).asm.openB)) = some (0, [some 65535], some (Bundle.fresh 2)) := by
  decide +kernel

theorem test_streamUpdate : see .streamUpdate (staged (.update ⟨1312, 9, .thinned, some 50, some 2⟩) (known up))
    (fun t => ((t.streams.slot 1312).entry.map fun e => (e.lastTimestamp, e.decimationCount, e.thinned), t.classifier.frame))
    = some (some (some 50, 2, 1), none) := by decide +kernel

theorem test_idleTimerExpiry : see (.idleTimerExpiry 2) (assembling up)
    (fun t => ((t.lane 2).asm.openB.map (·.closeReason), (t.lane 2).asm.counters.closeIdle, (t.lane 2).asm.age))
    = some (some (some .idle), 1, .stopped) := by decide +kernel

theorem test_ageTimerExpiry_notReached : see (.ageTimerExpiry 2) (assembling up) (fun t => (t.lane 2).asm.openB) = some (some filled) := by
  decide +kernel

theorem test_portSet : answer .portSet (queued 0x10 [7, 1] up) = some (.ok, [1])
    ∧ answer .portSet (queued 0x10 [7, 0] up) = some (.already, [0]) := by decide +kernel

theorem test_streamWrite : answer .streamWrite (queued 0x20 [3, 0x01, 0x23, 0x45, 1, 2, 2, 0, 0, 1] up) = some (.ok, [0, 0x05, 0x20, 0, 1])
    ∧ answer .streamWrite (queued 0x20 [3, 0x01, 0x23, 0x45, 1, 2, 2, 1, 0, 0, 0, 1] up) = some (.badRange, []) := by decide +kernel

theorem test_streamDelete : answer .streamDelete (queued 0x21 [3, 0x01, 0x23, 0x45, 1, 2] (known up)) = some (.ok, [0x05, 0x20, 0, 10])
    ∧ answer .streamDelete (queued 0x21 [3, 0x01, 0x23, 0x45, 1, 2] up) = some (.notFound, []) := by decide +kernel

theorem test_streamRead : answer .streamRead (queued 0x22 [1, 0x05, 0x20, 0] (known up)) = some (.ok,
    [0x05, 0x20, 0, 9, 3, 0x01, 0x23, 0x45, 1, 2, 2, 1, 0, 3, 2, 1, 0, 0, 0, 0, 0, 0, 0, 0, 0, 0, 0, 0, 0, 0, 0, 0]) := by decide +kernel

theorem test_ruleStage : answer .ruleStage (queued 0x30 [63, 1, 8, 0, 0, 0, 0, 0, 0, 0, 0, 0, 0, 0, 2, 1, 1] up) = some (.ok, [63])
    ∧ see .ruleStage (queued 0x30 [63, 1, 8, 0, 0, 0, 0, 0, 0, 0, 0, 0, 0, 0, 2, 1, 1] up) (fun t => t.rules.staged[63]) = some rule3 := by
  decide +kernel

theorem test_ruleApply : answer .ruleApply (queued 0x31 [] { up with rules := { version := 65535 } }) = some (.ok, [0, 0]) := by decide +kernel

theorem test_ruleRead : answer .ruleRead (queued 0x32 [1, 63] (ruled 63 rule3 up))
    = some (.ok, [1, 63, 0, 0, 1, 8, 0, 0, 0, 0, 0, 0, 0, 0, 0, 0, 0, 2, 1, 1]) := by decide +kernel

theorem test_classWrite : answer .classWrite (queued 0x33 [2, 2, 0, 1, 32, 1, 0, 32] up) = some (.ok, [2, 2, 0, 1, 32, 1, 0, 32])
    ∧ answer .classWrite (queued 0x33 [2, 2, 0, 1, 33, 1, 0, 32] up) = some (.badRange, []) := by decide +kernel

theorem test_spreadWrite : answer .spreadWrite (queued 0x34 [62, 2, 0x0F, 0xFF, 0] up) = some (.ok, [62, 0, 2, 0, 0, 0])
    ∧ answer .spreadWrite (queued 0x34 [63, 2, 0x0F, 0xFF, 0] up) = some (.badRange, []) := by decide +kernel

theorem test_mapRead : (answer .mapRead (queued 0x35 [] (mapped (.fixed 2) up))).map (fun x => (x.1, x.2.take 16, x.2.length))
    = some (.ok, [0, 0, 0, 0, 0, 1, 0, 0, 0, 0, 2, 1, 1, 2, 0, 0], 108) := by decide +kernel

theorem test_poolSet : answer .poolSet (queued 0x40 [0, 1, 0, 2] up) = some (.ok, [0, 1, 0, 2, 0x10, 0, 0])
    ∧ answer .poolSet (queued 0x40 [0, 2, 0, 2] up) = some (.badRange, []) := by decide +kernel

theorem test_laneFlush : answer .laneFlush (queued 0x50 [2] (assembling up)) = some (.ok, [0, 1, 0, 0])
    ∧ answer .laneFlush (queued 0x50 [2] up) = some (.laneDisabled, []) := by decide +kernel

theorem test_laneConfig : answer .laneConfig (queued 0x51 [2, 1, 0, 32, 0, 0, 0, 0, 0, 0] up)
      = some (.ok, [2, 0, 32, 0, 3, 0, 20, 4, 0, 0, 64, 0, 100, 0, 100])
    ∧ answer .laneConfig (queued 0x51 [2, 1, 0, 33, 0, 0, 0, 0, 0, 0] up) = some (.badRange, []) := by decide +kernel

theorem test_laneStart : answer .laneStart (queued 0x52 [2] up) = some (.ok, [1])
    ∧ answer .laneStart (queued 0x52 [2] (assembling up)) = some (.laneBusy, [1]) := by decide +kernel

theorem test_laneStop : answer .laneStop (queued 0x53 [2] (assembling up)) = some (.ok, [2])
    ∧ see .laneStop (queued 0x53 [2] (assembling up)) (fun t => ((t.lane 2).ldu.state, (t.lane 2).ldu.ready.map (·.closeReason)))
      = some (.draining, [some .drain]) := by decide +kernel

theorem test_laneReset : answer .laneReset (queued 0x54 [2] (onTheWire .sending (.retained 0) (sending up))) = some (.ok, [0, 0, 2, 1])
    ∧ see .laneReset (queued 0x54 [2] (onTheWire .sending (.retained 0) (sending up)))
        (fun t => ((t.lane 2).ldu.state, t.wireCells, t.pool.free, (t.lane 2).ldu.counters.aborts)) = some (.disabled, 1, 4097, 1) := by
  decide +kernel

/-- A lane update in flight. -/
def updating (u : LaneUpdate) (s : State) : State := { s with trunk := { s.trunk with handed := [.update u] } }

/-- R155: a command handed on before the update arrives first. -/
theorem test_laneUpdate_behind_arrival : see .laneUpdate { sending up with trunk := { up.trunk with
      handed := [.arrival (command 1 []), .update ⟨2, 1, 33, none⟩] } } (fun t => ((t.lane 2).ldu.a, t.trunk.handed.length)) = some (0, 2)
    ∧ see .commandArrival { sending up with trunk := { up.trunk with
      handed := [.update ⟨2, 1, 33, none⟩, .arrival (command 1 [])] } } (fun t => (t.mu.queue, t.trunk.handed))
      = some ([command 1 []], [.update ⟨2, 1, 33, none⟩]) := by decide +kernel

theorem test_laneUpdate : see .laneUpdate (updating ⟨2, 1, 33, none⟩ (sending up))
    (fun t => ((t.lane 2).ldu.a, (t.lane 2).ldu.g, (t.lane 2).ldu.retention.length, (t.lane 2).ldu.timer, t.trunk.counters.grantClamped))
    = some (1, 9, 0, .stopped, 1) := by decide +kernel

theorem test_laneUpdate_refused : see .laneUpdate (updating ⟨2, 2, 2, none⟩ (sending up))
    (fun t => ((t.lane 2).ldu.a, t.trunk.counters.updateRefused, t.notices.queue.map (·.kind))) = some (0, 1, [.trunkProtocol]) := by
  decide +kernel

/-- A send start request in flight. -/
def asked (l : LaneId) (s : State) : State := { s with trunk := { s.trunk with request := .sendStart l } }

theorem test_sendStart : see .sendStart (asked 2 (sending up))
    (fun t => ((t.lane 2).ldu.s, (t.lane 2).ldu.r, (t.lane 2).ldu.retention.length, t.trunk.lastServed, t.trunk.bundleOnWire))
    = some (2, 2, 2, 2, true) := by decide +kernel

theorem test_retransmitTimerExpiry : see (.retransmitTimerExpiry 2) (sending up)
    (fun t => ((t.lane 2).ldu.r, (t.lane 2).ldu.retry, (t.lane 2).ldu.timer, t.trunk.request))
    = some (0, 1, .running 20000 false, .sendStart 2) := by decide +kernel

theorem test_linkUp : see .linkUp (sending { up with trunk := {} }) (fun t => (t.trunk.linkUp, (t.lane 2).ldu.timer))
    = some (true, .running 20000 false) := by decide +kernel

theorem test_linkDown : see .linkDown (queued 1 [] (sending up))
    (fun t => (t.trunk.linkUp, t.mu.epoch, t.mu.commandsDiscarded, (t.lane 2).ldu.g, (t.lane 2).ldu.timer))
    = some (false, none, 1, 1, .stopped) := by decide +kernel

/-- An inbound frame in progress. -/
def inbound (x : Inbound) (s : State) : State := { s with trunk := { s.trunk with inbound := some x } }

theorem test_trunkStartDelimiter : see .trunkStartDelimiter (inbound .tooLong up) (fun t => (t.trunk.inbound, t.trunk.counters.inLengthErrors))
    = some (some (.receiving []), 1) := by decide +kernel

theorem test_trunkByteArrival : see (.trunkByteArrival 9) (inbound (.receiving (List.replicate 269 0)) up) (fun t => t.trunk.inbound)
    = some (some .tooLong) := by decide +kernel

theorem test_trunkAbortDelimiter : see .trunkAbortDelimiter (inbound .tooLong up) (fun t => (t.trunk.inbound, t.trunk.counters))
    = some (none, {}) := by decide +kernel

/-- A command frame of the inbound trunk. -/
def commandFrame : List Byte := withCheck [5, 0x22, 0, 0, 0, 1, 0, 7, 0x52, 1, 2]

/-- A lane control frame with one update, for lane 2. -/
def laneFrame (lane flags : Byte) : List Byte := withCheck [5, 0x21, 1, lane, flags, 0, 1, 0, 2, 0, 0]

theorem test_trunkEndDelimiter_command : see .trunkEndDelimiter (inbound (.receiving commandFrame) up)
    (fun t => (t.trunk.handed, t.trunk.counters.framesInOk)) = some ([.arrival (command 0x52 [2])], 1) := by decide +kernel

theorem test_trunkEndDelimiter_update : see .trunkEndDelimiter (inbound (.receiving (laneFrame 2 1)) up) (fun t => t.trunk.handed)
      = some [.update ⟨2, 1, 2, some 0⟩]
    ∧ see .trunkEndDelimiter (inbound (.receiving (laneFrame 16 0)) up) (fun t => (t.trunk.handed, t.trunk.counters.updateRefused))
      = some ([], 1) := by decide +kernel

/-- A command arrival in flight. -/
def arriving (c : Command) (s : State) : State := { s with trunk := { s.trunk with handed := [.arrival c] } }

theorem test_commandArrival : see .commandArrival (arriving (command 1 []) up) (fun t => t.mu.queue) = some [command 1 []] := by decide +kernel

theorem test_commandArrival_replay : see .commandArrival (arriving (command 1 []) { up with mu := { last := some ⟨1, 7, response⟩ } })
    (fun t => (t.mu.replays, t.trunk.outbound.isSome)) = some (1, true) := by decide +kernel

theorem test_commandEnd : see .commandEnd (executing (.done response) up)
    (fun t => (t.mu.executing, t.mu.commandsDone, t.mu.last, t.trunk.outbound.isSome)) = some (none, 1, some ⟨1, 7, response⟩, true) := by
  decide +kernel

/-- Notices that wait. -/
def noticed (n : Nat) (s : State) : State :=
  { s with notices := { s.notices with queue := List.replicate n ⟨.poolLow, .none, 0, 1⟩ } }

theorem test_noticeBatchRequest : see .noticeBatchRequest { noticed 9 up with trunk := { up.trunk with request := .batch } }
    (fun t => (t.notices.queue.length, t.notices.frameSeq, t.trunk.outbound.isSome, t.trunk.request)) = some (1, 1, true, .none) := by
  decide +kernel

theorem test_outboundFrameEnd : see .outboundFrameEnd { up with trunk := { up.trunk with outbound := some (.response response []) } }
    (fun t => (t.trunk.outbound, t.trunk.counters.framesOut)) = some (none, 1) := by decide +kernel

theorem test_bundleFrameEnd : see .bundleFrameEnd (onTheWire .sending (.releasing closed) up)
    (fun t => (t.trunk.outbound, t.trunk.counters.framesOut, t.pool.free)) = some (none, 1, 4097) := by decide +kernel

/-- R88: the on-wire flag of a bundle the frame still carries stays set when the bundle is RELEASING. -/
theorem test_onWire_releasing : (onTheWire .sending (.retained 0) (sending up)).onWire 2 (numberedBundle .sent 0) = true
    ∧ (State.discard 2 (onTheWire .sending (.retained 0) (sending up)) (numberedBundle .sent 0)).onWire 2 (numberedBundle .releasing 0) = true
    ∧ (sending up).onWire 2 (numberedBundle .sent 0) = false := by decide +kernel

theorem test_cutFrameEnd : see .cutFrameEnd (onTheWire .cutting (.releasing closed) (executing (.cutting true) up))
    (fun t => (t.trunk.outbound, t.trunk.counters.framesOut, t.mu.executing.map (·.progress))) = some (none, 0, some (.phase4Due true)) := by
  decide +kernel

theorem test_openSession : answer .openSession { up with mu := { up.mu with lastEpoch := 0, epoch := none, queue := [command 1 []] } }
      = some (.ok, [0, 0, 0, 1, 0])
    ∧ answer .openSession (queued 1 [] up) = some (.staleEpoch, []) := by decide +kernel

theorem test_closeSession : answer .closeSession (queued 2 [] up) = some (.ok, [0, 0, 0, 1])
    ∧ see .closeSession (queued 2 [] up) (fun t => (t.mu.epoch, t.mu.lastEpoch)) = some (none, 1) := by decide +kernel

theorem test_readStatus : answer .readStatus (queued 3 [3, 0] up) = some (.ok, [3, 0x10, 0, 1, 0, 2, 0, 0])
    ∧ answer .readStatus (queued 3 [1, 1, 0, 8] up) = some (.badRange, []) := by decide +kernel

theorem test_datapathReset : see .datapathReset (queued 4 [] (up.setPort 3 { state := .up, complete := [[1], [2]] }))
    (fun t => (t.mu.executing.map (·.progress), (t.port 3).complete, (t.port 3).counters.resetDiscards, t.holdLine 3))
    = some (some .phase3Due, [], 2, true) := by decide +kernel

theorem test_resetPhase3 : see .resetPhase3 (onTheWire .sending (.retained 0) (executing .phase3Due (sending up)))
    (fun t => (t.mu.executing.map (·.progress), t.trunk.sendingBundle none, (t.lane 2).ldu.counters.aborts))
    = some (some (.cutting true), false, 1) := by decide +kernel

theorem test_resetPhase4 : see .resetPhase4 (executing (.phase4Due true) (sending up))
    (fun t => (t.mu.executing.map (·.progress), (t.lane 2).ldu.state, t.pool.free))
    = some (some (.resetDone ⟨7, 4, .ok, false, [1, 0, 1]⟩), .disabled, 4096) := by decide +kernel

theorem test_noticeRearm : answer .noticeRearm (queued 0x60 [0, 2, 43, 43] { up with notices := up.notices.setSource 43 ⟨.pending, 5⟩ })
      = some (.ok, [0, 0, 0, 1, 0, 0, 0, 1])
    ∧ answer .noticeRearm (queued 0x60 [0, 1, 44] up) = some (.badRange, []) := by decide +kernel

theorem test_readCounters : (answer .readCounters (queued 0x61 [0, 1, 0, 7, 0] up)).map (fun x => (x.1, x.2.take 3, x.2.length))
      = some (.ok, [0, 0, 7], 51)
    ∧ answer .readCounters (queued 0x61 [4, 0, 0] up) = some (.badRange, []) := by decide +kernel

/-- A clearing read of lane 15 whose LDU has still to be read. -/
def halfRead (s : State) : State := executing (.reading true [.ldu 15] [1, 0, 15]) (s.setLane 15 ⟨{}, { counters := { stalls := 9 } }⟩)

/-- R197's example: the Assembler's event and the LDU's are two, and the second reads and clears what stands then. -/
theorem test_readCounters_owner_by_owner : see .readCounters (queued 0x61 [1, 1, 0, 15, 1] up)
      (fun t => t.mu.executing.map (·.progress)) = some (some (.reading true [.ldu 15] ([1, 0, 15] ++ List.replicate 52 0)))
    ∧ answer .readCounters (halfRead up) = some (.ok, [1, 0, 15] ++ List.replicate 15 0 ++ [9] ++ List.replicate 4 0)
    ∧ see .readCounters (halfRead up) (fun t => (t.lane 15).ldu.counters) = some {} := by decide +kernel

theorem test_unknownCommandCode : answer .unknownCommandCode (queued 0xEE [] up) = some (.badCommand, [])
    ∧ see .unknownCommandCode (queued 1 [] up) (fun t => t.mu.queue) = some [command 1 []] := by decide +kernel

/-- The outbound bytes of 10.3, written out: a response, a batch of one notice, and a bundle of one bound record. -/
theorem test_outboundBytes :
    (⟨7, 0x53, .laneDisabled, true, [9]⟩ : Response).frame 5 = withCheck [5, 0x32, 0, 7, 0x53, 10, 1, 0, 1, 9]
    ∧ NoticeBatch.frame 5 ⟨1, 2, [⟨.laneStalled, .lane 15, 256, 1⟩]⟩ = withCheck [5, 0x33, 0, 1, 0, 2, 1, 9, 15, 0, 0, 1, 0, 0, 1]
    ∧ (numberedBundle .ready 1).frame 5 = withCheck [5, 0x31, 2, 1, 0, 1, 1, 0, 0, 12, 0, 0, 0, 0, 0, 0, 0, 9,
      0, 0x05, 0x20, 4, 0, 0, 0, 50, 1, 2, 3, 4] := by decide +kernel

/-! ## For each statement with hypotheses: states and operands that meet them, at the boundaries of its clauses -/

theorem witness_IdleStepIsOneMicrosecond : up.pending = [] ∧ up.resetN = true ∧ up.powerOn.pending = [] ∧ up.powerOn.resetN = false
    ∧ see .frameTake up.tick (fun t => t.deviceTime) = some 1
    ∧ (Lane.tick 10000 ((assembling up).lane 2)).asm.age = .running 10000 true := by decide +kernel

theorem witness_ExecKeepsTheQueue : exec .frameTake up = .next up := rfl

theorem witness_OnlyIllFormedCommandsStop : Instr.wellFormed .frameTake = true ∧ (8 : Nat) ≤ 8 ∧ (16 : Nat) ≤ 16
    ∧ exec (.fieldByteArrival 8 0) up = .fault .noSuchPort ∧ exec (.handoff 16) up = .fault .noSuchLane :=
  ⟨rfl, Nat.le_refl _, Nat.le_refl _, rfl, rfl⟩

theorem witness_ResetLineHoldsAndReleases : up.powerOn.resetN = false ∧ (10 : Nat) ≤ 10 ∧ (9 : Nat) < 10 ∧ up.resetN = true
    ∧ Instr.wellFormed .frameTake = true ∧ Instr.frameTake ≠ .powerOnReset ∧ (∀ straps micros, Instr.frameTake ≠ .resetRelease straps micros)
    ∧ (∀ p, Instr.frameTake ≠ .lineSignalGained p) ∧ (∀ p, Instr.frameTake ≠ .lineSignalLost p) := by
  refine ⟨rfl, by decide, by decide, rfl, rfl, ?_, ?_, ?_, ?_⟩ <;> intros <;> intro h <;> cases h

/-- Port 7 in each of the five cases of R9's table. -/
theorem witness_StartDelimiterGivesTheMode : up.resetN = true
    ∧ ((up.setPort 7 { resetMark := true }).port 7).resetMark = true
    ∧ ((up.setPort 7 { state := .up }).port 7).resetMark = false ∧ ((up.setPort 7 { state := .up }).port 7).state = .up
    ∧ ((up.setPort 7 {}).port 7).resetMark = false ∧ ((up.setPort 7 {}).port 7).state = .disabled
    ∧ ((up.setPort 7 { state := .fault }).port 7).state = .fault ∧ ((up.setPort 7 { state := .down }).port 7).state = .down
    ∧ ({} : Port).reception = none ∧ ∀ x : Reception, ({ reception := some x } : Port).reception ≠ none := by
  refine ⟨?_, ?_, ?_, ?_, ?_, ?_, ?_, ?_, rfl, fun x h => (by cases h)⟩ <;> decide +kernel

/-- A frame of `n` bytes in reception, with `m` bytes of complete frames before it. -/
def filling (m n : Nat) : State :=
  up.setPort 7 { state := .up, complete := [List.replicate m 0], reception := some (.accept (List.replicate n 0)) }

/-- The 1025th byte at a full FIFO, the 1024th at a full one, and the 1024th at one byte less. -/
theorem witness_FieldByteIsStoredOrEndsTheFrame : up.resetN = true
    ∧ ((filling 3072 1024).port 7).reception = some (.accept (List.replicate 1024 0)) ∧ 1024 ≤ (List.replicate 1024 (0 : Byte)).length
    ∧ ((filling 3073 1023).port 7).reception = some (.accept (List.replicate 1023 0)) ∧ ((filling 3073 1023).port 7).fill = 4096
    ∧ ((filling 3072 1023).port 7).fill = 4095 ∧ (List.replicate 1023 (0 : Byte)).length < 1024
    ∧ ∀ bytes, ((up.setPort 7 { reception := some .spent }).port 7).reception ≠ some (.accept bytes) := by
  refine ⟨rfl, rfl, by decide +kernel, rfl, by decide +kernel, by decide +kernel, by decide +kernel, ?_⟩
  intro bytes h
  cases h

/-- The shortest good frame, of 11 bytes, and one of another kind. -/
def shortFrame (kind : Byte) : List Byte := withCheck [0, 0, 1, kind, 1, 0, 0]

theorem witness_EndDelimiterJudgesTheFrame : up.resetN = true ∧ (List.replicate 10 (0 : Byte)).length < 11
    ∧ 1024 < (List.replicate 1025 (0 : Byte)).length
    ∧ (List.replicate 11 (0 : Byte)).length = 11 ∧ checkCorrect (List.replicate 11 0) = false
    ∧ (shortFrame 1).length = 11 ∧ checkCorrect (shortFrame 1) = true ∧ (shortFrame 1)[3]? = some 0x01
    ∧ checkCorrect (shortFrame 2) = true ∧ (shortFrame 2)[3]? ≠ some 0x01
    ∧ (∀ x : Reception, ((up.setPort 7 { reception := some x }).port 7).reception = some x)
    ∧ ((up.setPort 7 {}).port 7).reception = none := by
  refine ⟨rfl, ?_, ?_, ?_, ?_, ?_, ?_, ?_, ?_, ?_, fun x => rfl, rfl⟩ <;> decide +kernel

/-- A state is ready for a command with these parameters under the open session. -/
def ready (code : Byte) (params : List Byte) (s : State) : Prop :=
  (queued code params s).begins code (command code params) [] ∧ (queued code params s).mu.epoch = some (command code params).epoch

theorem up_ready (code : Byte) (params : List Byte) : ready code params up := ⟨⟨rfl, rfl, rfl, rfl⟩, rfl⟩

theorem lane2_ready (code : Byte) (params : List Byte) (asm : Assembler) (ldu : Ldu) : ready code params (lane2 asm ldu up) :=
  ⟨⟨rfl, rfl, rfl, rfl⟩, rfl⟩

theorem witness_PortSetByItsTable : (∀ port flag : Byte, ready 0x10 [port, flag] up) ∧ 8 ≤ (8 : Byte).toNat ∧ (7 : Byte).toNat = (7 : PortId).val
    ∧ ((1 : Byte) ≠ 0) ∧ ∀ st : PortState, ((up.setPort 7 { state := st }).port 7).state = st :=
  ⟨fun _ _ => up_ready _ _, by decide, by decide, by decide, fun _ => rfl⟩

/-- Port 3 offers a frame, at position 3 (found first) and at position 4 (found last). -/
theorem witness_FrameTakeServesTheFirstOffer : up.resetN = true ∧ up.classifier.frame = none
    ∧ (∀ pos : PortId, State.Offers { up.setPort 3 { complete := [fieldFrame [record]] } with classifier := { position := pos } } 3
        (fieldFrame [record]) [])
    ∧ parseFieldFrame (fieldFrame [record]) = some (0x012345, [record]) ∧ parseFieldFrame (fieldFrame []) = none
    ∧ (∀ p, (up.port p).taken ≠ none ∨ (up.port p).complete = []) ∧ (staged .lookup up).classifier.frame ≠ none := by
  refine ⟨rfl, rfl, ?_, by decide +kernel, by decide +kernel, ?_, by decide +kernel⟩
  · intro pos
    refine ⟨rfl, rfl, 3 - pos, ?_, ?_⟩
    · revert pos; decide +kernel
    · revert pos; decide +kernel
  · intro p; right; revert p; decide +kernel

/-- A value of 64 bytes, and 32 records. -/
theorem witness_SoundFramesAreEncodedRecords :
    parseFieldFrame (fieldFrame [⟨1, 2, List.replicate 64 0⟩]) = some (0x012345, [⟨1, 2, List.replicate 64 0⟩])
    ∧ parseFieldFrame (fieldFrame (List.replicate 32 ⟨1, 2, []⟩)) = some (0x012345, List.replicate 32 ⟨1, 2, []⟩)
    ∧ parseFieldFrame (fieldFrame [⟨1, 2, List.replicate 65 0⟩]) = none
    ∧ parseFieldFrame (fieldFrame (List.replicate 33 ⟨1, 2, []⟩)) = none
    ∧ (255 : Nat) < 256 ∧ enc8 255 = [0xFF] ∧ (65535 : Nat) < 65536 ∧ encCount 65535 = [0xFF, 0xFF]
    ∧ enc24 0x012345 = [0x01, 0x23, 0x45] ∧ enc32 0x89ABCDEF = [0x89, 0xAB, 0xCD, 0xEF] ∧ be16 0x01 0x02 = 0x0102 := by decide +kernel

theorem inStage_staged (st : Stage) : (staged st up).inStage ⟨3, 0x012345, [record], 0, st⟩ record st := ⟨rfl, rfl, rfl, rfl⟩

theorem slots_of_328 (n : StreamNo) (h : key3.inBucket n) : n = 1312 ∨ n = 1313 ∨ n = 1314 ∨ n = 1315 := by
  have h2 : n.val / 4 = 328 := h
  rcases (by omega : n.val = 1312 ∨ n.val = 1313 ∨ n.val = 1314 ∨ n.val = 1315) with h | h | h | h
  · exact Or.inl (Fin.ext h)
  · exact Or.inr (Or.inl (Fin.ext h))
  · exact Or.inr (Or.inr (Or.inl (Fin.ext h)))
  · exact Or.inr (Or.inr (Or.inr (Fin.ext h)))

/-- The key held by the first slot of its bucket, by none of them, by none with the first slot free, and by none of four occupied ones. -/
theorem key3_held : (known up).streams.HasKey key3 1312 entry := by
  refine ⟨(by decide : 1312 / 4 = Key.bucket key3), by decide +kernel, rfl, ?_⟩
  intro m f hm hlt hf
  rcases slots_of_328 m hm with rfl | rfl | rfl | rfl <;> exact absurd hlt (by decide)

theorem key3_lacking : up.streams.LacksKey key3 := by
  intro n e hn he
  have : ∀ m : StreamNo, m = 1312 ∨ m = 1313 ∨ m = 1314 ∨ m = 1315 → (up.streams.slot m).entry = none := by
    rintro m (rfl | rfl | rfl | rfl) <;> decide +kernel
  rw [this n (slots_of_328 n hn)] at he
  cases he

theorem key3_free : up.streams.FirstFree key3 1312 := by
  refine ⟨(by decide : 1312 / 4 = Key.bucket key3), by decide +kernel, ?_⟩
  intro m hm hlt
  rcases slots_of_328 m hm with rfl | rfl | rfl | rfl <;> exact absurd hlt (by decide)

/-- Another key of the same bucket: 512 stations on. -/
def other : StreamEntry := { entry with key := ⟨3, 0x012545, 0x0102⟩ }

/-- Bucket 328 full of other keys. -/
def crowded : State := { up with streams := { up.streams with
  slots := (((up.streams.slots.set 1312 ⟨1, some other⟩).set 1313 ⟨1, some other⟩).set 1314 ⟨1, some other⟩).set 1315 ⟨1, some other⟩ } }

theorem key3_crowded : crowded.streams.LacksKey key3 ∧ crowded.streams.BucketFull key3 := by
  have key : ∀ m : StreamNo, m = 1312 ∨ m = 1313 ∨ m = 1314 ∨ m = 1315 → (crowded.streams.slot m).entry = some other := by
    rintro m (rfl | rfl | rfl | rfl) <;> decide +kernel
  constructor
  · intro n e hn he
    rw [key n (slots_of_328 n hn)] at he
    cases he
    decide
  · intro n hn
    rw [key n (slots_of_328 n hn)]
    intro h
    cases h

theorem witness_LookupHitsOrMisses : (staged .lookup (known up)).inStage ⟨3, 0x012345, [record], 0, .lookup⟩ record .lookup
    ∧ (staged .lookup (known up)).streams.HasKey ⟨3, 0x012345, record.tag⟩ 1312 entry
    ∧ (staged .lookup up).streams.LacksKey ⟨3, 0x012345, record.tag⟩ := ⟨⟨rfl, rfl, rfl, rfl⟩, key3_held, key3_lacking⟩

/-- Timestamps 50 against 51 (older), 50 (equal), 49 (newer) and 50 + 2^31 (neither), under both dropping policies. -/
theorem witness_HitRecordsAreJudged : isOlder record.timestamp 51 = true ∧ isOlder record.timestamp 50 = false
    ∧ isNewer record.timestamp 49 = true ∧ isNewer record.timestamp 50 = false ∧ record.timestamp = 50
    ∧ isOlder record.timestamp 0x80000032 = false ∧ isNewer record.timestamp 0x80000032 = false ∧ record.timestamp ≠ 0x80000032
    ∧ snap.stale = .dropNotNewer ∧ snap.lastTimestamp = none ∧ snap.decimationCount = 0
    ∧ ({ snap with decimationCount := 1, stale := .dropOlder } : Snapshot).decimationCount ≠ 0 := by decide

theorem witness_RuleSearchTakesTheFirstMatch : (staged .ruleSearch up).inStage ⟨3, 0x012345, [record], 0, .ruleSearch⟩ record .ruleSearch
    ∧ (∀ i : RuleIndex, ¬ (up.rules.active[i].valid = true ∧ up.rules.active[i].Matches key3))
    ∧ (ruled 63 rule3 up).rules.Selects key3 63 ∧ (ruled 63 rule3 up).rules.active[(63 : RuleIndex)].action = .place
    ∧ (ruled 0 { rule3 with action := .drop } up).rules.Selects key3 0
    ∧ (ruled 0 { rule3 with action := .drop } up).rules.active[(0 : RuleIndex)].action = .drop := by
  have none : ∀ i : RuleIndex, up.rules.active[i].valid = false := by decide +kernel
  have low : ∀ j : RuleIndex, j < 63 → (ruled 63 rule3 up).rules.active[j].valid = false := by decide +kernel
  have matches3 : ∀ a : Action, ({ rule3 with action := a } : Rule).Matches key3 := by
    intro a
    exact ⟨(by decide : rule3.portSet.getLsbD key3.port.val = true), fun b h => absurd h (by simp [rule3]), fun b h => absurd h (by simp [rule3])⟩
  have at63 : (ruled 63 rule3 up).rules.active[(63 : RuleIndex)] = rule3 := by decide +kernel
  have at0 : (ruled 0 { rule3 with action := .drop } up).rules.active[(0 : RuleIndex)] = { rule3 with action := .drop } := by decide +kernel
  refine ⟨inStage_staged _, fun i h => ?_, ⟨?_, ?_, fun j hj h => ?_⟩, ?_, ⟨?_, ?_, fun j hj h => ?_⟩, ?_⟩
  · rw [none i] at h; exact absurd h.1 (by decide)
  · rw [at63]; rfl
  · rw [at63]; exact matches3 .place
  · rw [low j hj] at h; exact absurd h.1 (by decide)
  · rw [at63]; rfl
  · rw [at0]; rfl
  · rw [at0]; exact matches3 .drop
  · exact absurd hj (Nat.not_lt_zero _)
  · rw [at0]

theorem witness_LearnInsertByItsTable :
    (∀ s : State, s.resetN = true → (staged (.learn 63 2 .keep) s).inStage ⟨3, 0x012345, [record], 0, .learn 63 2 .keep⟩ record (.learn 63 2 .keep))
    ∧ (known up).streams.HasKey key3 1312 entry ∧ up.streams.LacksKey key3 ∧ up.streams.FirstFree key3 1312
    ∧ crowded.streams.LacksKey key3 ∧ crowded.streams.BucketFull key3 ∧ crowded.resetN = true :=
  ⟨fun _ h => ⟨h, rfl, rfl, rfl⟩, key3_held, key3_lacking, key3_free, key3_crowded.1, key3_crowded.2, rfl⟩

/-- Class 2 unset, fixed, spread over entries 0 to 63 with the selected one unset, and with it set. -/
theorem witness_LaneResolutionByItsTable : (staged (.resolve (.unbound 63 2)) up).inStage ⟨3, 0x012345, [record], 0, .resolve (.unbound 63 2)⟩ record (.resolve (.unbound 63 2))
    ∧ (staged (.resolve (.bound snap 50 1)) up).inStage ⟨3, 0x012345, [record], 0, .resolve (.bound snap 50 1)⟩ record (.resolve (.bound snap 50 1)) ∧ snap.cls = 2
    ∧ up.map.classes[(2 : ClassId)] = .unset ∧ (mapped (.fixed 15) up).map.classes[(2 : ClassId)] = .fixed 15
    ∧ (mapped (.spread 0 64) up).map.classes[(2 : ClassId)] = .spread 0 64
    ∧ (36 : SpreadIndex).val = 0 + spreadFold 0x012345 0 % 64 ∧ up.map.spread[(36 : SpreadIndex)] = none
    ∧ (up.map.spread.set 36 (some 15))[(36 : SpreadIndex)] = some 15 := by
  refine ⟨⟨rfl, rfl, rfl, rfl⟩, ⟨rfl, rfl, rfl, rfl⟩, ?_⟩
  decide +kernel

theorem witness_StreamUpdateNeedsTheGeneration :
    (staged (.update ⟨1312, 9, .accepted, none, none⟩) (known up)).inStage ⟨3, 0x012345, [record], 0, .update ⟨1312, 9, .accepted, none, none⟩⟩ record
      (.update ⟨1312, 9, .accepted, none, none⟩)
    ∧ ((known up).streams.slot 1312).entry = some entry ∧ ((known up).streams.slot 1312).generation = 9
    ∧ ((known up).streams.slot 1312).generation ≠ 8 ∧ (up.streams.slot 1312).entry = none := by
  refine ⟨⟨rfl, rfl, rfl, rfl⟩, ?_⟩
  decide +kernel

/-- One record left, none left, and an abandon request. -/
theorem witness_RecordEndsAtItsBoundary : up.classifier.abandon = false
    ∧ (⟨3, 0, [record, record], 0, .lookup⟩ : FrameInProgress).index + 1 < [record, record].length
    ∧ [record].length ≤ (⟨3, 0, [record], 0, .lookup⟩ : FrameInProgress).index + 1
    ∧ ({ executing .abandoning up with classifier := { abandon := true } } : State).classifier.abandon = true
    ∧ (executing .abandoning up).mu.executing = some ⟨command 4 [], .abandoning⟩ := by decide +kernel

theorem witness_StreamWriteReplacesOrInserts : (∀ params, ready 0x20 params up) ∧ (∀ params, ready 0x20 params (known up))
    ∧ (∀ params, ready 0x20 params crowded)
    ∧ OptionalCount [0x00] none ∧ OptionalCount [0x01, 0, 255] (some 255) ∧ OptionalCount [0x01, 1, 0] (some 256) ∧ OptionalCount [0x01, 0, 0] (some 0)
    ∧ 8 ≤ (8 : Byte).toNat ∧ 3 ≤ (3 : Byte).toNat ∧ (3 : Byte).toNat = (3 : PortId).val ∧ (7 : Byte).toNat = (7 : ClassId).val
    ∧ (⟨3, be24 0x01 0x23 0x45, be16 0x01 0x02⟩ : Key) = key3
    ∧ (known up).streams.HasKey key3 1312 entry ∧ up.streams.LacksKey key3 ∧ up.streams.FirstFree key3 1312
    ∧ crowded.streams.LacksKey key3 ∧ crowded.streams.BucketFull key3 := by
  refine ⟨fun _ => up_ready _ _, fun _ => ⟨⟨rfl, rfl, rfl, rfl⟩, rfl⟩, fun _ => ⟨⟨rfl, rfl, rfl, rfl⟩, rfl⟩, Or.inl ⟨rfl, rfl⟩,
    Or.inr ⟨0, 255, rfl, by decide⟩, Or.inr ⟨1, 0, rfl, by decide⟩, Or.inr ⟨0, 0, rfl, by decide⟩, by decide, by decide, by decide, by decide, by decide,
    key3_held, key3_lacking, key3_free, key3_crowded.1, key3_crowded.2⟩

/-- Streams 2047 and 2048, occupied and free slots, a read within and outside a session, a selector of 2 with 4 and 8 bytes. -/
theorem witness_StreamDeleteAndReadByTheirTables : (∀ params, ready 0x21 params (known up)) ∧ (∀ params, ready 0x22 params (known up))
    ∧ 8 ≤ (8 : Byte).toNat ∧ (3 : Byte).toNat = (3 : PortId).val ∧ 2048 ≤ 256 * (8 : Byte).toNat + (0 : Byte).toNat
    ∧ 256 * (7 : Byte).toNat + (255 : Byte).toNat = (2047 : StreamNo).val ∧ (up.streams.slot 2047).entry = none
    ∧ 256 * (5 : Byte).toNat + (32 : Byte).toNat = (1312 : StreamNo).val ∧ ((known up).streams.slot 1312).entry = some entry
    ∧ (known up).streams.HasKey key3 1312 entry ∧ up.streams.LacksKey key3
    ∧ (2 : Byte) ≠ 0x00 ∧ (2 : Byte) ≠ 0x01 ∧ [(0 : Byte), 0].length = 2 ∧ (List.replicate 6 (0 : Byte)).length = 6 := by
  refine ⟨fun _ => ⟨⟨rfl, rfl, rfl, rfl⟩, rfl⟩, fun _ => ⟨⟨rfl, rfl, rfl, rfl⟩, rfl⟩, by decide, by decide, by decide, by decide,
    by decide +kernel, by decide, by decide +kernel, key3_held, key3_lacking, by decide, by decide, by decide, by decide⟩

theorem test_streamRead_selector : answer .streamRead (queued 0x22 [2, 0, 0, 0] up) = some (.badRange, [])
    ∧ answer .streamRead (queued 0x22 [2, 0, 0, 0, 0, 0, 0, 0] up) = some (.badRange, [])
    ∧ answer .streamRead (queued 0x22 [2, 0, 0, 0, 0] up) = some (.badLength, []) := by decide +kernel

theorem witness_RuleStageAndApplyByTheirRules : (∀ params, ready 0x30 params up) ∧ ready 0x31 [] up ∧ 64 ≤ (64 : Byte).toNat
    ∧ (63 : Byte).toNat = (63 : RuleIndex).val ∧ 2 ≤ (2 : Byte).toNat ∧ 8 ≤ (8 : Byte).toNat ∧ 3 ≤ (3 : Byte).toNat
    ∧ (1 : Byte).toNat = Action.drop.code ∧ (7 : Byte).toNat = (7 : ClassId).val ∧ (2 : Byte).toNat = StalePolicy.dropNotNewer.code :=
  ⟨fun _ => up_ready _ _, up_ready _ _, by decide, by decide, by decide, by decide, by decide, by decide, by decide, by decide⟩

theorem witness_RuleAndMapReadsReport : (∀ params, ready 0x32 params up) ∧ ready 0x35 [] up ∧ 2 ≤ (2 : Byte).toNat ∧ 64 ≤ (64 : Byte).toNat
    ∧ (63 : Byte).toNat = (63 : RuleIndex).val := ⟨fun _ => up_ready _ _, up_ready _ _, by decide, by decide, by decide⟩

/-- Base 32 with size 32 fits, base 33 does not; 16 entries from 48 fit, from 49 do not. -/
theorem witness_ClassAndSpreadWritesByTheirChecks : (∀ params, ready 0x33 params up) ∧ (∀ params, ready 0x34 params up)
    ∧ OptionalCount [0x00] none ∧ OptionalCount [0x01, 0, 32] (some 32) ∧ 8 ≤ (8 : Byte).toNat ∧ (7 : Byte).toNat = (7 : ClassId).val
    ∧ 3 ≤ (3 : Byte).toNat ∧ 16 ≤ (16 : Byte).toNat ∧ (15 : Byte).toNat = (15 : LaneId).val ∧ 64 ≤ (64 : Byte).toNat
    ∧ 32 ∈ [1, 2, 4, 8, 16, 32, 64] ∧ 3 ∉ [1, 2, 4, 8, 16, 32, 64] ∧ (32 : Byte).toNat + 32 ≤ 64 ∧ 64 < (33 : Byte).toNat + 32
    ∧ (List.replicate 16 (0xFF : Byte)).length = (16 : Byte).toNat ∧ (48 : Byte).toNat + (List.replicate 16 (0xFF : Byte)).length ≤ 64
    ∧ 64 < (49 : Byte).toNat + (List.replicate 16 (0xFF : Byte)).length ∧ 16 < (List.replicate 17 (0xFF : Byte)).length
    ∧ (∃ b ∈ [(16 : Byte)], b ≠ 0xFF ∧ 16 ≤ b.toNat) ∧ (∀ b ∈ [(15 : Byte), 0xFF], b = 0xFF ∨ b.toNat < 16) := by
  refine ⟨fun _ => up_ready _ _, fun _ => up_ready _ _, Or.inl ⟨rfl, rfl⟩, Or.inr ⟨0, 32, rfl, by decide⟩, ?_⟩
  decide

/-- A free count of 5 with hold thresholds 3 and 2: an allocation of 5, 6, and 3; and POOL_SET at the edges of its ranges. -/
theorem witness_CellPoolByItsRules : (∀ params, ready 0x40 params up) ∧ 0 < 3 ∧ 5 < 6 ∧ 3 ≤ 5 ∧ 2 ≤ 5 - 3 ∧ 5 - 3 < 3
    ∧ (4095 : Nat) = 256 * (0x0F : Byte).toNat + (0xFF : Byte).toNat ∧ (4096 : Nat) = 256 * (0x10 : Byte).toNat + (0 : Byte).toNat
    ∧ (4094 : Nat) < 4095 ∧ (4095 : Nat) ≤ 4095 ∧ up.pool.held = false ∧ up.pool.free = 4096
    ∧ ({ up with pool := ⟨5, 3, 4, true, 1⟩ } : State).pool.held = true := by
  refine ⟨fun _ => up_ready _ _, ?_⟩
  decide

theorem witness_ClosedBundlesAreHandedOff : up.resetN = true
    ∧ (lane2 { openB := some closed } {} up).lane 2 = ⟨{ openB := some closed }, {}⟩ ∧ (∀ x, (Lane.mk { openB := some filled } {}).asm.openB = some x → x = filled)
    ∧ ((assembling up).lane 2).asm.openB = some filled ∧ filled.records ≠ []
    ∧ filled.closeReason = none ∧ (Bundle.fresh 2).records = [] ∧ closed.closeReason ≠ none
    ∧ ((lane2 { openB := some closed } { state := .open, ready := List.replicate 31 (numberedBundle .ready 0) } up).lane 2).ldu.ready.length < 32
    ∧ 32 ≤ ((lane2 { openB := some closed } { state := .open, ready := List.replicate 32 (numberedBundle .ready 0) } up).lane 2).ldu.ready.length := by
  refine ⟨rfl, by decide +kernel, fun x h => (by cases h; rfl), ?_⟩
  decide +kernel

/-- A refused allocation, and a granted one with the record limit reached and not reached. -/
theorem witness_PlacementAppendsTheRecord : State.allocate { up with pool := { free := 1 } } 2 = none
    ∧ State.allocate up 0 = some up ∧ (16 + 12 + 12 + 63) / 64 - 1 = 0
    ∧ (1 : Nat) ≤ filled.records.length + 1 ∧ filled.records.length + 1 < ({} : AssemblyConfig).recordLimit := by
  refine ⟨rfl, rfl, by decide, by decide, by decide⟩

/-- A record that just fits a bundle of 1024 bytes and one that just does not; the lane in each state. -/
theorem witness_PlacementAnswersByItsSteps : (staged (.place (.unbound 63 2) 2) up).inStage ⟨3, 0x012345, [record], 0, .place (.unbound 63 2) 2⟩ record (.place (.unbound 63 2) 2)
    ∧ (staged (.place (.bound snap 50 1) 2) up).inStage ⟨3, 0x012345, [record], 0, .place (.bound snap 50 1) 2⟩ record (.place (.bound snap 50 1) 2)
    ∧ (∀ st : LaneState, (((lane2 { openB := some filled } { state := st } up).lane 2).settle 2).ldu.state = st)
    ∧ (((assembling up).lane 2).settle 2).asm.pendingB = none ∧ (((assembling up).lane 2).settle 2).asm.openB = some filled
    ∧ 16 + 996 + 12 ≤ ({} : AssemblyConfig).maxBytes ∧ ({} : AssemblyConfig).maxBytes < 16 + 997 + 12
    ∧ (((lane2 { pendingB := some closed } { state := .open } up).lane 2).settle 2).asm.pendingB ≠ none := by
  refine ⟨⟨rfl, rfl, rfl, rfl⟩, ⟨rfl, rfl, rfl, rfl⟩, fun _ => rfl, ?_⟩
  decide +kernel

theorem witness_TimerExpiriesCloseTheBundle : up.resetN = true ∧ ((assembling up).lane 2).asm.idle = .running 0 false ∧ up.deviceTime = 0
    ∧ ((assembling up).lane 2).asm.age = .running 10000 false ∧ (10000 : Word) ≠ up.deviceTime
    ∧ ((lane2 { idle := .running 9 true, age := .running 9 true } {} up).lane 2).asm.age = .running 9 true
    ∧ (up.lane 2).asm.idle = .stopped ∧ (up.lane 2).asm.age = .stopped := by decide +kernel

/-- A lane in DRAINING that holds nothing, and one that holds its open bundle's record; no update at the head, and one. Acks of S and S + 1, a grant of S and one below, a resend-from of S − 1 and of S, in a lane with A = 0 and S = 1. -/
def drained (b : Bundle) : Lane := ⟨{ openB := some b }, { state := .draining }⟩

theorem witness_LaneUpdateIsTakenByParts : up.resetN = true ∧ up.trunk.handed = []
    ∧ ({ up with trunk := { up.trunk with handed := [.arrival (command 1 [])] } } : State).trunk.handed = .arrival (command 1 []) :: []
    ∧ (drained (Bundle.fresh 2)).ldu.state = .draining ∧ (Bundle.fresh 2).records = [] ∧ (Bundle.fresh 2).cells = 0 ∧ (Bundle.fresh 2).seq = none
    ∧ (drained (Bundle.fresh 2)).asm.pendingB = none ∧ (drained (Bundle.fresh 2)).ldu.ready = [] ∧ (drained (Bundle.fresh 2)).ldu.retention = []
    ∧ (drained filled).asm.openB = some filled ∧ filled.records ≠ [] ∧ (updating ⟨2, 1, 1, some 0⟩ (sending up)).resetN = true
    ∧ (updating ⟨2, 1, 1, some 0⟩ (sending up)).trunk.handed = [.update ⟨2, 1, 1, some 0⟩]
    ∧ (executing .abandoning up).resetInExecution = true ∧ up.resetInExecution = false ∧ (up.lane 2).ldu.state = .disabled
    ∧ ((sending up).lane 2).ldu.state ≠ .disabled
    ∧ distance (0 : SeqNo) 1 < distance (0 : SeqNo) 2 ∧ distance (0 : SeqNo) 1 ≤ distance (0 : SeqNo) 1
    ∧ isOlder (0 : SeqNo) 1 = true ∧ isOlder (1 : SeqNo) 1 = false ∧ distance (0 : SeqNo) 0 < distance (0 : SeqNo) 1 := by decide +kernel

/-- A bundle retained on the wire, one released on it and one off it; a drain entry with records and without; an ack of A and of S; grants of S − 1, A + 8 and A + 9; resend-from S − 1 and S. -/
theorem witness_PartsOfALaneUpdate : (numberedBundle .sent 0).state = .sent ∧ (drained filled).settle 2 = drained filled
    ∧ (drained filled).asm.openB = some filled ∧ filled.records ≠ [] ∧ filled.closeReason = none
    ∧ (drained (Bundle.fresh 2)).settle 2 = drained (Bundle.fresh 2) ∧ (drained (Bundle.fresh 2)).asm.openB = some (Bundle.fresh 2)
    ∧ up.trunk.outbound = none ∧ (onTheWire .sending (.retained 0) up).trunk.outbound = some (.bundle 2 .sending (.retained 0) [])
    ∧ (numberedBundle .sent 0).seq = some 0 ∧ (numberedBundle .sent 1).seq ≠ some 0
    ∧ ((sending up).lane 2).ldu.a = 0 ∧ (1 : SeqNo) ≠ ((sending up).lane 2).ldu.a
    ∧ isOlder (0 : SeqNo) ((sending up).lane 2).ldu.s = true ∧ isOlder (8 : SeqNo) ((sending up).lane 2).ldu.s = false
    ∧ distance (0 : SeqNo) 8 ≤ ((sending up).lane 2).ldu.config.window ∧ ((sending up).lane 2).ldu.config.window < distance (0 : SeqNo) 9
    ∧ distance (0 : SeqNo) 0 < distance (0 : SeqNo) ((sending up).lane 2).ldu.s
    ∧ distance (0 : SeqNo) ((sending up).lane 2).ldu.s ≤ distance (0 : SeqNo) 1 := by decide +kernel

/-- Lane 2 of `sending`, with R one behind S and with R at S; a lane that is not eligible. -/
theorem witness_SendStartSendsOneBundle : (asked 2 (sending up)).resetN = true ∧ (asked 2 (sending up)).trunk.request = .sendStart 2
    ∧ ((sending up).trunk.outbound = none ∧ (sending up).resetInExecution = false ∧ ((sending up).lane 2).ldu.state = .open
      ∧ (sending up).trunk.linkUp = true)
    ∧ isNewer (1 : SeqNo) 0 = true ∧ ((sending up).lane 2).ldu.retention[distance (0 : SeqNo) 0]? = some (numberedBundle .sent 0)
    ∧ ((sending up).lane 2).ldu.r = ((sending up).lane 2).ldu.s
    ∧ isNewer ((sending up).lane 2).ldu.c ((sending up).lane 2).ldu.s = true ∧ isNewer ((sending up).lane 2).ldu.g ((sending up).lane 2).ldu.s = true
    ∧ ((sending up).lane 2).ldu.ready = numberedBundle .ready 1 :: [] ∧ ([] : List Bundle).length < 32
    ∧ isNewer (0 : SeqNo) 0 = false ∧ (up.lane 2).ldu.state = .disabled := by decide +kernel

/-- A retry count that reaches the limit of 3, and one that passes it. -/
theorem witness_RetransmitExpiryRewindsOrStalls : (sending up).resetN = true ∧ ((sending up).lane 2).ldu.timer = .running 0 false
    ∧ (0 : Word) = (sending up).deviceTime ∧ ((sending up).lane 2).mayRun (sending up).trunk.linkUp = true
    ∧ 2 + 1 ≤ ((sending up).lane 2).ldu.config.retryLimit ∧ ((sending up).lane 2).ldu.config.retryLimit < 3 + 1
    ∧ (up.lane 2).ldu.timer = .stopped
    ∧ ((lane2 {} { timer := .running 1 false } up).lane 2).ldu.timer = .running 1 false ∧ (1 : Word) ≠ up.deviceTime := by decide +kernel

theorem witness_LaneFlushByItsTable : (∀ params asm ldu, ready 0x50 params (lane2 asm ldu up)) ∧ 16 ≤ (16 : Byte).toNat
    ∧ (2 : Byte).toNat = (2 : LaneId).val ∧ (up.lane 2).ldu.state = .disabled ∧ ((assembling up).lane 2).ldu.state ≠ .disabled
    ∧ (((assembling up).lane 2).settle 2).asm.pendingB = none ∧ (((assembling up).lane 2).settle 2).asm.openB = some filled
    ∧ filled.records ≠ [] ∧ filled.closeReason = none
    ∧ (((sending up).lane 2).settle 2).asm.openB = some (Bundle.fresh 2)
    ∧ (((lane2 { pendingB := some closed } { state := .open } up).lane 2).settle 2).asm.pendingB ≠ none := by
  refine ⟨fun _ _ _ => lane2_ready _ _ _ _, ?_⟩
  decide +kernel

theorem witness_LaneConfigSetsADisabledLane : (∀ params asm ldu, ready 0x51 params (lane2 asm ldu up)) ∧ OptionalCount [0x00] none
    ∧ OptionalCount [0x01, 0, 32] (some 32) ∧ OptionalCount [0x01, 0, 33] (some 33) ∧ OptionalCount [0x01, 0x10, 0] (some 4096)
    ∧ 16 ≤ (16 : Byte).toNat ∧ (15 : Byte).toNat = (15 : LaneId).val ∧ 128 ≤ 4096 ∧ 4096 ≤ 4096 ∧ 4096 % 64 = 0
    ∧ ∀ st : LaneState, ((lane2 {} { state := st } up).lane 2).ldu.state = st := by
  refine ⟨fun _ _ _ => lane2_ready _ _ _ _, Or.inl ⟨rfl, rfl⟩, Or.inr ⟨0, 32, rfl, by decide⟩, Or.inr ⟨0, 33, rfl, by decide⟩,
    Or.inr ⟨0x10, 0, rfl, by decide⟩, by decide, by decide, by decide, by decide, by decide, fun _ => rfl⟩

theorem witness_LaneStartAndStopByTheirTables : (∀ code params asm ldu, ready code params (lane2 asm ldu up)) ∧ 16 ≤ (16 : Byte).toNat
    ∧ (2 : Byte).toNat = (2 : LaneId).val
    ∧ (∀ (st : LaneState) (d : Bool), ((lane2 {} { state := st, drainRequested := d } up).lane 2).ldu.state = st
      ∧ ((lane2 {} { state := st, drainRequested := d } up).lane 2).ldu.drainRequested = d)
    ∧ (((assembling up).lane 2).settle 2).asm.openB = some filled ∧ filled.records ≠ [] ∧ filled.closeReason = none
    ∧ (((sending up).lane 2).settle 2).asm.openB = some (Bundle.fresh 2) ∧ (((sending up).lane 2).settle 2).ldu.ready ≠ []
    ∧ (((lane2 { openB := some (Bundle.fresh 2) } { state := .open } up).lane 2).settle 2).ldu.ready = []
    ∧ (((lane2 { openB := some (Bundle.fresh 2) } { state := .open } up).lane 2).settle 2).ldu.retention = [] := by
  refine ⟨fun _ _ _ _ => lane2_ready _ _ _ _, by decide, by decide, fun _ _ => ⟨rfl, rfl⟩, ?_⟩
  decide +kernel

theorem witness_LaneResetDiscardsTheLane : ready 0x54 [2] (onTheWire .sending (.retained 0) (sending up)) ∧ 16 ≤ (16 : Byte).toNat
    ∧ (2 : Byte).toNat = (2 : LaneId).val ∧ (up.lane 2).ldu.state = .disabled ∧ ((sending up).lane 2).ldu.state ≠ .disabled
    ∧ (onTheWire .sending (.retained 0) (sending up)).trunk.outbound = some (.bundle 2 .sending (.retained 0) [])
    ∧ (sending up).trunk.outbound = none := by
  refine ⟨⟨⟨rfl, rfl, rfl, rfl⟩, rfl⟩, ?_⟩
  decide +kernel

theorem witness_LinkChangesReachEveryBlock : up.resetN = true ∧ up.trunk.linkUp = true ∧ State.reset.trunk.linkUp = false
    ∧ (onTheWire .sending (.releasing closed) up).trunk.outbound = some (.bundle 2 .sending (.releasing closed) [])
    ∧ (executing (.cutting true) up).mu.executing = some ⟨command 4 [], .cutting true⟩
    ∧ (halfRead up).mu.executing = some ⟨command 4 [], .reading true [.ldu 15] [1, 0, 15]⟩
    ∧ (executing (.done response) up).mu.executing = some ⟨command 4 [], .done response⟩
    ∧ 8 ≤ (List.replicate 8 response).length ∧ (List.replicate 7 response).length < 8 := by decide +kernel

/-- Frames of 7 and 8 bytes; a sound check; the unit and kinds; one and sixteen updates. -/
theorem witness_InboundFramesAreJudged : up.resetN = true ∧ (inbound .tooLong up).trunk.inbound = some .tooLong
    ∧ (inbound (.receiving commandFrame) up).trunk.inbound = some (.receiving commandFrame)
    ∧ (List.replicate 7 (0 : Byte)).length < 8 ∧ 8 ≤ (List.replicate 8 (0 : Byte)).length ∧ checkCorrect (List.replicate 8 0) = false
    ∧ 8 ≤ commandFrame.length ∧ checkCorrect commandFrame = true ∧ commandFrame[0]? = some up.trunk.unit ∧ commandFrame[1]? = some 0x22
    ∧ commandFrame = [up.trunk.unit, 0x22] ++ enc32 1 ++ enc16 7 ++ [0x52] ++ enc8 1 ++ [2] ++ commandFrame.drop 11
    ∧ (commandFrame.drop 11).length = 4
    ∧ checkCorrect (withCheck [4, 0x22, 0, 0]) = true ∧ (withCheck [4, 0x22, 0, 0])[0]? ≠ some up.trunk.unit
    ∧ checkCorrect (withCheck [5, 0x23, 0, 0]) = true ∧ (withCheck [5, 0x23, 0, 0])[1]? ≠ some 0x22
    ∧ checkCorrect (withCheck [5, 0x21, 0, 0]) = true ∧ (withCheck [5, 0x21, 0, 0])[2]? = some 0
    ∧ checkCorrect (laneFrame 16 1) = true ∧ (laneFrame 16 1)[1]? = some 0x21 := by decide +kernel

/-- The free wire with a response, with 8 responses and a command that waits, with a notice, and with lane 2 eligible. -/
theorem witness_ArbiterChoosesInOrder : (sending up).eligible 2 = true ∧ (up.lane 2).ldu.state = .disabled ∧ up.trunk.outbound = none ∧ up.trunk.linkUp = true ∧ up.trunk.request = .none ∧ up.trunk.responses = []
    ∧ (List.replicate 6 response).length < 7 ∧ 7 ≤ (List.replicate 7 response).length
    ∧ (executing (.done response) up).mu.executing = some ⟨command 4 [], .done response⟩ ∧ up.mu.executing = none
    ∧ up.mu.epoch ≠ none ∧ (noticed 1 up).notices.queue ≠ [] ∧ up.notices.queue = []
    ∧ (sending up).resetInExecution = false ∧ (sending up).eligible ((sending up).trunk.lastServed + 1 + 2) = true
    ∧ (∀ j : LaneId, j < 2 → (sending up).eligible ((sending up).trunk.lastServed + 1 + j) = false)
    ∧ (∀ l, up.eligible l = false) ∧ (executing .abandoning up).resetInExecution = true := by decide +kernel

theorem witness_OutboundFramesEnd : (numberedBundle .ready 1).closeReason = some .count ∧ (numberedBundle .ready 1).seq = some 1
    ∧ (numberedBundle .ready 1).openTime = some 0 ∧ (numberedBundle .ready 1).closeTime = some 9
    ∧ up.resetN = true
    ∧ ({ up with trunk := { up.trunk with outbound := some (.response response []) } } : State).trunk.outbound = some (.response response [])
    ∧ (onTheWire .sending (.retained 0) up).trunk.outbound = some (.bundle 2 .sending (.retained 0) [])
    ∧ (onTheWire .sending (.releasing closed) up).trunk.outbound = some (.bundle 2 .sending (.releasing closed) [])
    ∧ (onTheWire .cutting (.releasing closed) (executing (.cutting true) up)).trunk.outbound = some (.bundle 2 .cutting (.releasing closed) [])
    ∧ (executing (.cutting true) up).mu.executing = some ⟨command 4 [], .cutting true⟩ ∧ up.mu.executing = none
    ∧ ({ noticed 9 up with trunk := { up.trunk with request := .batch } } : State).trunk.request = .batch ∧ up.mu.epoch ≠ none
    ∧ (noticed 9 up).notices.queue ≠ [] ∧ up.notices.queue = [] := by decide +kernel

/-- The five cases, each with a full and a free queue where it matters. -/
theorem witness_CommandArrivalByItsFiveCases : (∀ c, Handover.arrival c ∉ up.trunk.handed)
    ∧ ({ up with trunk := { up.trunk with handed := [.update ⟨2, 1, 1, none⟩, .arrival (command 1 [])] } } : State).trunk.handed
      = [(⟨2, 1, 1, none⟩ : LaneUpdate)].map Handover.update ++ .arrival (command 1 []) :: []
    ∧ (arriving (command 1 []) up).resetN = true
    ∧ (arriving (command 1 []) up).trunk.handed = ([] : List LaneUpdate).map Handover.update ++ .arrival (command 1 []) :: [] ∧ State.reset.trunk.linkUp = false ∧ up.trunk.linkUp = true
    ∧ ({ up with mu := { last := some ⟨1, 7, response⟩ } } : State).mu.last = some ⟨1, 7, response⟩
    ∧ (queued 1 [] up).mu.queue = [command 1 []] ∧ up.mu.last = none ∧ up.mu.queue = [] ∧ up.mu.executing = none
    ∧ (List.replicate 7 response).length < 8 ∧ 8 ≤ (List.replicate 8 response).length
    ∧ 8 ≤ (List.replicate 8 (⟨0, 0, 1, []⟩ : Command)).length ∧ (∀ q ∈ List.replicate 8 (⟨0, 0, 1, []⟩ : Command), q.epoch ≠ 1) := by
  refine ⟨fun c h => absurd (show Handover.arrival c ∈ [] from h) List.not_mem_nil, ?_⟩
  decide +kernel

theorem witness_CommandEndsAtItsPlacement : (executing (.done response) up).resetN = true
    ∧ (executing (.done response) up).mu.executing = some ⟨command 4 [], .done response⟩
    ∧ (executing (.resetDone response) up).mu.executing = some ⟨command 4 [], .resetDone response⟩
    ∧ (List.replicate 7 response).length < 8 ∧ 8 ≤ (List.replicate 8 response).length := by decide +kernel

/-- An unknown code; parameters one byte short; a wrong epoch with and without a session. -/
theorem witness_CommandsAreJudgedAtTheirBeginning : (∀ code params, ready code params up) ∧ (∀ i, commandCode i ≠ some 0xEE)
    ∧ commandCode .portSet = some 0x10 ∧ parametersHold .portSet [7] = false ∧ parametersHold .portSet [7, 1] = true
    ∧ ¬ sessionAllows (sessionNeedOf .portSet [7, 1]) 2 up.mu.epoch ∧ up.mu.epoch ≠ none
    ∧ ¬ sessionAllows (sessionNeedOf .portSet [7, 1]) 1 State.reset.mu.epoch
    ∧ ¬ sessionAllows (sessionNeedOf .readStatus [0, 0]) 2 up.mu.epoch
    ∧ (executing .phase3Due up).mu.executing ≠ none ∧ up.mu.queue = [] ∧ up.resetN = true
    ∧ (∀ c clear left result, (executing .phase3Due up).mu.executing ≠ some ⟨c, .reading clear left result⟩) := by
  refine ⟨fun _ _ => up_ready _ _, ?_, rfl, rfl, rfl, ?_, ?_, ?_, ?_, ?_, rfl, rfl, fun _ _ _ _ h => (by cases h)⟩
  · intro i h
    cases i <;> exact absurd h (by simp [commandCode])
  · intro h; exact absurd (show some (1 : Word) = some 2 from h) (by decide)
  · decide
  · intro h; exact absurd (show (none : Option Word) = some 1 from h) (by decide)
  · intro h; rcases h with h | h <;> exact absurd h (by decide)
  · intro h; cases h

/-- The epoch 1 against a last epoch of 0 and of 1. -/
theorem witness_SessionsOpenAndClose : ready 0x01 [] up ∧ ready 0x02 [] up ∧ (command 1 []).epoch.toNat ≤ up.mu.lastEpoch.toNat
    ∧ ({ up with mu := { lastEpoch := 0, queue := [command 1 []] } } : State).begins 0x01 (command 1 []) []
    ∧ (0 : Word).toNat < (command 1 []).epoch.toNat :=
  ⟨up_ready _ _, up_ready _ _, by decide, ⟨rfl, rfl, rfl, rfl⟩, by decide⟩

/-- Scope 4; port 7 and 8; lane 15 and 16. -/
theorem witness_ReadStatusReportsTheScope : (∀ params, ready 0x03 params up) ∧ OptionalCount [0x00] none ∧ OptionalCount [0x01, 0, 7] (some (7 : PortId).val)
    ∧ OptionalCount [0x01, 0, 15] (some (15 : LaneId).val) ∧ OptionalCount [0x01, 0, 16] (some 16) ∧ 3 < (4 : Byte).toNat
    ∧ (∀ n, some 8 = some n → 8 ≤ n) ∧ (∀ n, some 16 = some n → 16 ≤ n)
    ∧ (true = true ↔ (up.port 7).state = .disabled ∨ (up.port 7).state = .fault ∨ up.pool.held = true ∨ (up.port 7).resetMark = true
      ∨ (up.port 7).fifoHigh = true) := by
  refine ⟨fun _ => up_ready _ _, Or.inl ⟨rfl, rfl⟩, Or.inr ⟨0, 7, rfl, by decide⟩, Or.inr ⟨0, 15, rfl, by decide⟩, Or.inr ⟨0, 16, rfl, by decide⟩,
    by decide, ?_, ?_, ?_⟩
  · rintro n h; cases h; decide
  · rintro n h; cases h; decide
  · exact ⟨fun _ => Or.inl (by decide +kernel), fun _ => rfl⟩

theorem witness_DatapathResetGoesThroughItsPhases : ready 0x04 [] up ∧ up.classifier.frame = none ∧ (staged .lookup up).classifier.frame ≠ none
    ∧ (executing .phase3Due up).resetN = true ∧ (executing .phase3Due up).mu.executing = some ⟨command 4 [], .phase3Due⟩ ∧ up.trunk.outbound = none
    ∧ (onTheWire .cutting (.retained 0) up).trunk.outbound = some (.bundle 2 .cutting (.retained 0) [])
    ∧ (onTheWire .sending (.retained 0) up).trunk.outbound = some (.bundle 2 .sending (.retained 0) [])
    ∧ (executing (.phase4Due true) up).mu.executing = some ⟨command 4 [], .phase4Due true⟩ ∧ (executing (.phase4Due true) up).trunk.bundleOnWire = false := by
  refine ⟨up_ready _ _, ?_⟩
  decide +kernel

theorem witness_OnlyTheirCommandsChangeRulesAndEpoch : exec .frameTake up = .next up ∧ Instr.frameTake ≠ .powerOnReset
    ∧ (∀ straps micros, Instr.frameTake = .resetRelease straps micros → up.resetN = true ∨ 10 ≤ micros) ∧ Instr.frameTake ≠ .ruleApply
    ∧ Instr.frameTake ≠ .openSession := by
  refine ⟨rfl, ?_, ?_, ?_, ?_⟩
  · intro h; cases h
  · intro _ _ h; cases h
  · intro h; cases h
  · intro h; cases h

/-- Source 43 in each condition; 31 and 32 notices; source numbers 43 and 44. -/
theorem witness_NoticeSourcesByTheirTables : (∀ params, ready 0x60 params up)
    ∧ (∀ a : Arming, ((up.notices.setSource 43 ⟨a, 0⟩).source 43).arming = a)
    ∧ (noticed 31 up).notices.queue.length < 32 ∧ 32 ≤ (noticed 32 up).notices.queue.length ∧ (2 : Byte).toNat ≥ 2
    ∧ (∃ b ∈ [(44 : Byte)], 44 ≤ b.toNat) ∧ (∀ b ∈ [(43 : Byte)], b.toNat < 44) ∧ [(43 : Byte)].length = (1 : Byte).toNat
    ∧ ∀ i : SourceNo, decide (i = 43) = true ↔ ∃ b ∈ [(43 : Byte)], b.toNat = i.val := by
  refine ⟨fun _ => up_ready _ _, fun _ => rfl, ?_⟩
  decide +kernel

/-- Port 7 and 8, lane 15 and 16, group 3 and 4, with and without clear; a read with one owner and with two owners left. -/
theorem witness_ReadCountersReadsAndClears : (∀ params, ready 0x61 params up) ∧ OptionalCount [0x00] none
    ∧ OptionalCount [0x01, 0, 7] (some (7 : PortId).val) ∧ OptionalCount [0x01, 0, 15] (some (15 : LaneId).val)
    ∧ (∀ n, some 8 = some n → 8 ≤ n) ∧ (∀ n, some 16 = some n → 16 ≤ n) ∧ 3 < (4 : Byte).toNat ∧ (1 : Byte) ≠ 0
    ∧ (halfRead up).resetN = true ∧ (halfRead up).mu.executing = some ⟨command 4 [], .reading true [.ldu 15] [1, 0, 15]⟩
    ∧ (executing (.reading false [.classifier, .streams] [3]) up).mu.executing = some ⟨command 4 [], .reading false [.classifier, .streams] [3]⟩ := by
  refine ⟨fun _ => up_ready _ _, Or.inl ⟨rfl, rfl⟩, Or.inr ⟨0, 7, rfl, by decide⟩, Or.inr ⟨0, 15, rfl, by decide⟩, ?_, ?_, by decide, by decide, rfl, rfl, rfl⟩
  · rintro n h; cases h; decide
  · rintro n h; cases h; decide

/-- A state in service: port 0 UP, lane 2 OPEN, the link UP, session 1 open, a command waiting. -/
def alive : State :=
  { lane2 { openB := some (Bundle.fresh 2) } { state := .open } ((up.setPort 0 { state := .up, signal := true }).setLine 0 true) with pending := [.frameTake] }

theorem alive_port (p : PortId) : alive.port p = {} ∨ alive.port p = { state := .up, signal := true } := by
  revert p
  decide +kernel

theorem alive_lane (l : LaneId) : alive.lane l = {} ∨ (l = 2 ∧ alive.lane l = ⟨{ openB := some (Bundle.fresh 2) }, { state := .open }⟩) := by
  revert l
  decide +kernel

theorem numbered_nothing (q : SeqNo) (st : BundleState) : numbered q st [] := by
  intro i b h
  simp at h

theorem witness_EveryStep : alive.determined ∧ ∃ t, step alive = .next t := by
  refine ⟨?_, _, rfl⟩
  intro straps micros rest h
  exact Or.inl rfl

theorem witness_EveryStepKeepsPortsSound : alive.PortsSound := by
  have lines : ∀ p : PortId, (alive.port p).signal = alive.line p := by decide +kernel
  intro p
  refine ⟨?_, lines p⟩
  rcases alive_port p with h | h <;> rw [h]
  · exact ⟨by decide, fun _ h => (by cases h), by decide, by decide, fun _ => rfl, by decide, by decide, by decide, by decide⟩
  · exact ⟨by decide, fun _ h => (by cases h), by decide, by decide, fun _ => rfl, by decide, by decide, by decide, by decide⟩

theorem witness_EveryStepKeepsLinkAndSessionSound : alive.LinkSound :=
  ⟨fun h => (by cases h), fun e h => (by cases h; exact ⟨rfl, by decide⟩), by decide, by decide⟩

theorem witness_EveryStepKeepsNoticesAndPoolHold : alive.notices.Sound ∧ alive.pool.Sound := by
  have calm : ∀ i : SourceNo, (alive.notices.source i).arming = .armed ∧ (alive.notices.source i).count = 0 := by decide +kernel
  refine ⟨⟨fun i _ => (calm i).2, fun i h => ?_, by decide, fun n h => absurd (show n ∈ [] from h) List.not_mem_nil⟩,
    ⟨by decide, by decide, by decide, by decide⟩⟩
  rw [(calm i).1] at h
  cases h

theorem witness_EveryStepKeepsStreamKeysApart : alive.streams.Sound := by
  have free : ∀ n : StreamNo, (alive.streams.slot n).entry = none := by
    intro n
    show ((Vector.replicate 2048 ({} : Slot))[n]).entry = none
    simp
  constructor
  · intro n e h
    rw [free n] at h
    cases h
  · intro n m e f h
    rw [free n] at h
    cases h

theorem witness_EveryStepKeepsResetPhasesSound : alive.PhasesSound := by
  have marks : ∀ p : PortId, (alive.port p).resetMark = false := by decide +kernel
  exact ⟨marks, fun p h => (by cases h), rfl, fun h => (by cases h), fun h => (by cases h), fun h => (by cases h)⟩

theorem witness_EveryStepKeepsLanesSound : alive.LanesSound := by
  refine ⟨fun l => ?_, fun l => ?_, fun f h => (by cases h)⟩
  · rcases alive_lane l with h | ⟨rfl, h⟩ <;> rw [h]
    · exact ⟨by decide, by decide, by decide, by decide, by decide, by decide, by decide, ⟨by decide, numbered_nothing _ _⟩,
        ⟨by decide, numbered_nothing _ _⟩, by decide, fun b h => (by cases h), fun b h => (by cases h),
        fun b h => absurd (show b ∈ [] from h) List.not_mem_nil, by decide, by decide, by decide⟩
    · refine ⟨by decide, by decide, by decide, by decide, by decide, by decide, by decide, ⟨by decide, numbered_nothing _ _⟩,
        ⟨by decide, numbered_nothing _ _⟩, by decide, fun b h => ?_, fun b h => (by cases h), fun b h => ?_, by decide, by decide, by decide⟩
      · cases h
        exact ⟨rfl, rfl, fun _ => rfl, fun _ => by decide⟩
      · have hb : b = Bundle.fresh 2 := List.mem_singleton.1 h
        subst hb
        exact ⟨rfl, rfl, rfl, by decide, by decide⟩
  · rcases alive_lane l with h | ⟨rfl, h⟩ <;> rw [h] <;> exact fun h => absurd rfl h

theorem witness_EveryStepKeepsCellsInBalance : alive.CellsBalance := by
  show alive.pool.free + ∑ l : LaneId, (alive.lane l).cells + alive.wireCells = 4096
  decide +kernel

end Sys2Proof.Tests
end

/-! Proof of O16: modular comparison, saturating counters and the spread fold as arithmetic of naturals, and the byte-wise frame check as a check bit by bit. -/

namespace Sys2Proof.Machine

/-! ## Modular comparison at every width (R1) -/

theorem distance_eq_mod {n : Nat} (a b : BitVec n) : distance a b = (b.toNat + 2 ^ n - a.toNat) % 2 ^ n := by
  have := a.isLt
  rw [distance, BitVec.toNat_sub]
  congr 1
  omega

theorem distance_eq_zero_iff {n : Nat} (a b : BitVec n) : distance a b = 0 ↔ b = a := by
  constructor
  · intro h
    exact sub_eq_zero.1 (BitVec.eq_of_toNat_eq (h.trans BitVec.toNat_zero.symm))
  · rintro rfl
    exact distance_self b

/-- The two ways round between different values make up the whole range. -/
theorem distance_add_distance_swap {n : Nat} {a b : BitVec n} (h : a ≠ b) : distance a b + distance b a = 2 ^ n := by
  have ha := a.isLt
  have hb := b.isLt
  have hne : a.toNat ≠ b.toNat := fun e => h (BitVec.eq_of_toNat_eq e)
  rw [distance_eq_mod, distance_eq_mod]
  rcases Nat.lt_or_gt_of_ne hne with hlt | hgt
  · rw [Nat.mod_eq_sub_mod (by omega), Nat.mod_eq_of_lt (by omega), Nat.mod_eq_of_lt (by omega)]
    omega
  · rw [Nat.mod_eq_of_lt (by omega), Nat.mod_eq_sub_mod (by omega), Nat.mod_eq_of_lt (by omega)]
    omega

theorem isNewer_iff_ne_and_distance {n : Nat} (b a : BitVec n) :
    isNewer b a = true ↔ b ≠ a ∧ distance a b < 2 ^ (n - 1) := by
  rw [isNewer, Bool.and_eq_true, decide_eq_true_iff, decide_eq_true_iff, Nat.pos_iff_ne_zero, ne_eq, distance_eq_zero_iff]

theorem isOlder_eq_false_of_isNewer {n : Nat} (hn : 0 < n) {b a : BitVec n} (h : isNewer b a = true) :
    isOlder b a = false := by
  have hhalves := Nat.two_pow_pred_add_two_pow_pred hn
  obtain ⟨hne, hlt⟩ := (isNewer_iff_ne_and_distance b a).1 h
  have hsum := distance_add_distance_swap hne
  refine Bool.eq_false_iff.2 fun holder => ?_
  have := ((isNewer_iff_ne_and_distance a b).1 holder).2
  omega

theorem distance_eq_half_of_unordered {n : Nat} (hn : 0 < n) {a b : BitVec n} (hne : a ≠ b)
    (hnewer : isNewer b a = false) (holder : isOlder b a = false) : distance a b = 2 ^ (n - 1) := by
  have hhalves := Nat.two_pow_pred_add_two_pow_pred hn
  have hsum := distance_add_distance_swap hne
  have hab : ¬ distance a b < 2 ^ (n - 1) := fun hlt =>
    Bool.eq_false_iff.1 hnewer ((isNewer_iff_ne_and_distance b a).2 ⟨hne.symm, hlt⟩)
  have hba : ¬ distance b a < 2 ^ (n - 1) := fun hlt =>
    Bool.eq_false_iff.1 holder ((isNewer_iff_ne_and_distance a b).2 ⟨hne, hlt⟩)
  omega

/-- R1 as arithmetic of naturals, with half the range as 2^(n−1). -/
theorem modular_comparison {n : Nat} (hn : 0 < n) (a b : BitVec n) :
    (isNewer b a = true ↔ b ≠ a ∧ (b.toNat + 2 ^ n - a.toNat) % 2 ^ n < 2 ^ (n - 1))
    ∧ isOlder b a = isNewer a b ∧ (isNewer b a = true → isOlder b a = false)
    ∧ (a ≠ b → isNewer b a = false → isOlder b a = false → (b.toNat + 2 ^ n - a.toNat) % 2 ^ n = 2 ^ (n - 1))
    ∧ distance a b = (b.toNat + 2 ^ n - a.toNat) % 2 ^ n := by
  rw [← distance_eq_mod]
  exact ⟨isNewer_iff_ne_and_distance b a, rfl, isOlder_eq_false_of_isNewer hn, distance_eq_half_of_unordered hn, rfl⟩

/-! ## The frame check, bit by bit (R14) -/

/-- One bit enters the check register: the polynomial is added when the leaving bit differs from it. -/
def checkBit (reg : Word) (bit : Bool) : Word :=
  if reg.msb != bit then (reg <<< 1) ^^^ 0x04C11DB7#32 else reg <<< 1

/-- A register that holds pending data `v` beside the remainder `x`: when the top bit of `v` enters, it cancels
against the register's own, so that `x` decides the feedback and `v` only shifts. -/
theorem checkBit_xor_msb (x v : Word) : checkBit (x ^^^ v) v.msb = checkShift x ^^^ (v <<< 1) := by
  have hfeedback : ((x ^^^ v).msb != v.msb) = x.msb := by rw [BitVec.msb_xor, Bool.bne_assoc, bne_self_eq_false, Bool.bne_false]
  rw [checkBit, hfeedback, checkShift, BitVec.shiftLeft_xor_distrib]
  split
  · rw [BitVec.xor_assoc, BitVec.xor_assoc, BitVec.xor_comm (v <<< 1)]
  · rfl

/-- The first `n` bits of a word, entering one by one, do what adding the word at once and shifting `n` times does. -/
theorem foldl_checkBit_msb (n : Nat) (reg w : Word) :
    ((List.range n).map fun i => (w <<< i).msb).foldl checkBit reg = checkShift^[n] (reg ^^^ w) ^^^ (w <<< n) := by
  induction n with
  | zero => simp
  | succ n ih =>
    rw [List.range_succ, List.map_append, List.foldl_append, ih, List.map_singleton, List.foldl_cons, List.foldl_nil,
      checkBit_xor_msb, Function.iterate_succ_apply', BitVec.shiftLeft_add]

/-- The bits of a byte, most significant first. -/
def byteBits (b : Byte) : List Bool := (List.range 8).map fun i => b.getLsbD (7 - i)

theorem byteBits_eq_msb (b : Byte) :
    byteBits b = (List.range 8).map fun i => ((b.setWidth 32 <<< 24) <<< i).msb := by
  refine List.map_congr_left fun i hi => ?_
  have hi8 : i < 8 := List.mem_range.1 hi
  rw [← BitVec.shiftLeft_add, BitVec.msb_eq_getLsbD_last, BitVec.getLsbD_shiftLeft, BitVec.getLsbD_setWidth]
  have hindex : 32 - 1 - (24 + i) = 7 - i := by omega
  have hinside : 7 - i < 32 ∧ 24 + i ≤ 31 := by omega
  simp [hindex, hinside]

theorem checkByte_eq_foldl_checkBit (reg : Word) (b : Byte) : checkByte reg b = (byteBits b).foldl checkBit reg := by
  have hspent : (b.setWidth 32 <<< 24) <<< 8 = 0#32 := by
    rw [← BitVec.shiftLeft_add, BitVec.shiftLeft_eq_zero (by decide)]
  rw [byteBits_eq_msb, foldl_checkBit_msb, hspent, BitVec.xor_zero]
  rfl

theorem frameCheck_eq_foldl_checkBit (bytes : List Byte) :
    frameCheck bytes = ~~~ ((bytes.flatMap byteBits).foldl checkBit 0xFFFFFFFF#32) := by
  have hbyte : checkByte = fun reg b => (byteBits b).foldl checkBit reg :=
    funext fun reg => funext fun b => checkByte_eq_foldl_checkBit reg b
  rw [frameCheck, List.foldl_flatMap, hbyte]

/-! ## The check field of a frame (R14) -/

theorem be32_extractLsb' (x : Word) :
    be32 (x.extractLsb' 24 8) (x.extractLsb' 16 8) (x.extractLsb' 8 8) (x.extractLsb' 0 8) = x := by
  rw [be32, BitVec.extractLsb'_append_extractLsb'_eq_extractLsb' (show 24 = 16 + 8 from rfl),
    BitVec.extractLsb'_append_extractLsb'_eq_extractLsb' (show 16 = 8 + 8 from rfl),
    BitVec.extractLsb'_append_extractLsb'_eq_extractLsb' (show 8 = 0 + 8 from rfl)]
  exact BitVec.extractLsb'_eq_self

theorem frameBody_append_enc32 (body : List Byte) (field : Word) : frameBody (body ++ enc32 field) = body := by
  simp [frameBody, enc32]

theorem checkField_append_enc32 (body : List Byte) (field : Word) :
    checkField (body ++ enc32 field) = some field := by
  have hdrop : (body ++ enc32 field).drop ((body ++ enc32 field).length - 4) = enc32 field := by simp [enc32]
  rw [checkField, hdrop]
  exact congrArg some (be32_extractLsb' field)

theorem checkCorrect_append_enc32_iff (body : List Byte) (field : Word) :
    checkCorrect (body ++ enc32 field) = true ↔ field = frameCheck body := by
  rw [checkCorrect, checkField_append_enc32, frameBody_append_enc32, beq_iff_eq, Option.some_inj]

/-! ## Saturating counters (R2) and the spread fold (R59) -/

theorem satAdd_toNat_eq_ite {n : Nat} (c : BitVec n) (k : Nat) :
    (satAdd c k).toNat = if c.toNat + k ≤ 2 ^ n - 1 then c.toNat + k else 2 ^ n - 1 := by
  rw [satAdd_toNat, Nat.min_def]

theorem spreadFold_eq (station salt : Station) (x : Nat) (hx : x = (station.toNat + salt.toNat) % 2 ^ 24) :
    spreadFold station salt = (x / 2 ^ 18 + x / 2 ^ 12 % 64 + x / 2 ^ 6 % 64 + x % 64) % 64 := by
  have hsum : (station + salt).toNat = x := by rw [hx, BitVec.toNat_add]
  have htop : x / 2 ^ 18 % 64 = x / 2 ^ 18 := Nat.mod_eq_of_lt (by omega)
  simp only [spreadFold, BitVec.extractLsb'_toNat, hsum, Nat.shiftRight_eq_div_pow]
  rw [show (2 : Nat) ^ 6 = 64 from rfl, htop, Nat.pow_zero, Nat.div_one]

/-- Settles O16: R1 at both widths from the lemma for every width, R14 from the check bit by bit, and the counters and
the fold as arithmetic of naturals. -/
theorem sharedArithmeticByItsRules : Obligations.SharedArithmeticByItsRules :=
  ⟨⟨modular_comparison (by decide), modular_comparison (by decide)⟩,
    frameCheck_eq_foldl_checkBit,
    checkCorrect_append_enc32_iff,
    satAdd_toNat_eq_ite,
    satAdd_toNat_eq_ite,
    fun _ => rfl,
    fun _ => rfl,
    fun station salt => ⟨_, rfl, spreadFold_eq station salt _ rfl⟩⟩

end Sys2Proof.Machine

/-! Proof of O14 and O18: LOOKUP and LEARN_INSERT are the lookup stage and the learn stage of the record in progress, and each stage follows the answer of the stream table. -/

namespace Sys2Proof.Machine

/-! ## The events are their stages while the part runs (R206) -/

theorem running_of_resetN {s : State} (f : State → State) (h : s.resetN = true) : running f s = .next (f s) := by
  rw [running, if_pos h]

theorem exec_lookup_eq_lookupStage {s : State} (h : s.resetN = true) : exec .lookup s = .next s.lookupStage :=
  running_of_resetN State.lookupStage h

theorem exec_learnInsert_eq_learnStage {s : State} (h : s.resetN = true) : exec .learnInsert s = .next s.learnStage :=
  running_of_resetN State.learnStage h

/-! ## The answers of a learn insert (R35) -/

section Learn
variable {t : StreamTable} {k : Key} {n : StreamNo} (cls : ClassId) (stale : StalePolicy)

theorem StreamTable.learn_of_hasKey {e : StreamEntry} (h : t.HasKey k n e) :
    t.learn k cls stale = (t, .present (snapshotOf n (t.slot n).generation e)) := by
  simp only [StreamTable.learn, StreamTable.lookup_eq h]

theorem StreamTable.learn_of_firstFree (hlacks : t.LacksKey k) (hfree : t.FirstFree k n) :
    t.learn k cls stale =
      ({ t.write n (some (learnedEntry k cls stale)) with learned := satInc t.learned },
        .inserted (snapshotOf n ((t.slot n).generation + 1) (learnedEntry k cls stale))) := by
  simp only [StreamTable.learn, StreamTable.lookup_none hlacks, StreamTable.freeSlot_eq hfree]

theorem StreamTable.learn_of_bucketFull (hlacks : t.LacksKey k) (hfull : t.BucketFull k) :
    t.learn k cls stale = ({ t with learnFailed := satInc t.learnFailed }, .full) := by
  simp only [StreamTable.learn, StreamTable.lookup_none hlacks, StreamTable.freeSlot_none hfull]

end Learn

/-! ## The stages by the table's answer (R51, R54) -/

/-- The event and the record's stage touch different blocks, so their order within the learn insert is free. -/
theorem State.setStage_raise (s : State) (i : SourceNo) (f : FrameInProgress) (g : Stage) :
    (s.raise i).setStage f g = (s.setStage f g).raise i := rfl

section Stages
variable {s : State} {f : FrameInProgress} {r : FieldRecord}

theorem State.lookupStage_of_hit {snap : Snapshot} (h : s.inStage f r .lookup)
    (hit : s.streams.lookup (f.key r) = some snap) : s.lookupStage = s.judgeHit f snap r := by
  obtain ⟨-, hframe, hrecord, hstage⟩ := h
  simp only [State.lookupStage, FrameInProgress.record, hframe, hrecord, hstage, hit]

theorem State.lookupStage_of_miss (h : s.inStage f r .lookup) (miss : s.streams.lookup (f.key r) = none) :
    s.lookupStage = s.setStage f .ruleSearch := by
  obtain ⟨-, hframe, hrecord, hstage⟩ := h
  simp only [State.lookupStage, FrameInProgress.record, hframe, hrecord, hstage, miss]

variable {i : RuleIndex} {cls : ClassId} {stale : StalePolicy} {t : StreamTable}

theorem State.learnStage_of_present {snap : Snapshot} (h : s.inStage f r (.learn i cls stale))
    (answer : s.streams.learn (f.key r) cls stale = (t, .present snap)) :
    s.learnStage = { s with streams := t }.judgeHit f snap r := by
  obtain ⟨-, hframe, hrecord, hstage⟩ := h
  simp only [State.learnStage, FrameInProgress.record, hframe, hrecord, hstage, answer]

theorem State.learnStage_of_inserted {snap : Snapshot} (h : s.inStage f r (.learn i cls stale))
    (answer : s.streams.learn (f.key r) cls stale = (t, .inserted snap)) :
    s.learnStage = { s with streams := t }.judgeHit f snap r := by
  obtain ⟨-, hframe, hrecord, hstage⟩ := h
  simp only [State.learnStage, FrameInProgress.record, hframe, hrecord, hstage, answer]

theorem State.learnStage_of_full (h : s.inStage f r (.learn i cls stale))
    (answer : s.streams.learn (f.key r) cls stale = (t, .full)) :
    s.learnStage =
      (({ s with streams := t }.setStage f (.resolve (.unbound i cls))).raise srcLearnFailed).arbitrate := by
  obtain ⟨-, hframe, hrecord, hstage⟩ := h
  simp only [State.learnStage, FrameInProgress.record, hframe, hrecord, hstage, answer, State.setStage_raise]

end Stages

/-! ## The obligations -/

/-- Settles O14, by the table's answer: the snapshot of the entry that holds the key, or none. -/
theorem lookupHitsOrMisses : Obligations.LookupHitsOrMisses := by
  intro s f r h
  rw [exec_lookup_eq_lookupStage h.1]
  refine ⟨fun n e hkey => ?_, fun hlacks => ?_⟩
  · rw [State.lookupStage_of_hit h (StreamTable.lookup_eq hkey)]
    rfl
  · rw [State.lookupStage_of_miss h (StreamTable.lookup_none hlacks)]
    rfl

/-- Settles O18, by the three answers of a learn insert: PRESENT, INSERTED and FULL. -/
theorem learnInsertByItsTable : Obligations.LearnInsertByItsTable := by
  intro s f r i cls stale h
  rw [exec_learnInsert_eq_learnStage h.1]
  refine ⟨fun n e hkey => ?_, fun hlacks n hfree => ?_, fun hlacks hfull => ?_⟩
  · rw [State.learnStage_of_present h (StreamTable.learn_of_hasKey cls stale hkey)]
    rfl
  · rw [State.learnStage_of_inserted h (StreamTable.learn_of_firstFree cls stale hlacks hfree)]
    rfl
  · rw [State.learnStage_of_full h (StreamTable.learn_of_bucketFull cls stale hlacks hfull)]
    rfl

end Sys2Proof.Machine

/-! Proof of O15, O17 and O19: the judgement of a hit record by its stale verdict and decimation count, RULE_SEARCH by the answer of the rule search, and LANE_RESOLUTION by the answer of the class map. -/

namespace Sys2Proof.Machine

theorem exec_ruleSearch_eq_searchStage {s : State} (h : s.resetN = true) : exec .ruleSearch s = .next s.searchStage :=
  running_of_resetN State.searchStage h

theorem exec_laneResolution_eq_resolveStage {s : State} (h : s.resetN = true) :
    exec .laneResolution s = .next s.resolveStage :=
  running_of_resetN State.resolveStage h

/-! ## The stale check by policy and timestamps (R56) -/

theorem isNewer_self {n : Nat} (a : BitVec n) : isNewer a a = false :=
  Bool.eq_false_iff.mpr fun h => ((isNewer_iff_ne_and_distance a a).mp h).1 rfl

section StaleCheck
variable {policy : StalePolicy} {last : Option Word} {t ts : Word}

theorem staleCheck_of_late (h : policy = .dropOlder ∧ isOlder ts t = true
      ∨ policy = .dropNotNewer ∧ isNewer ts t = false ∧ ts ≠ t) :
    staleCheck policy (some t) ts = .stale := by
  rcases h with ⟨rfl, older⟩ | ⟨rfl, notNewer, ne⟩
  · simp only [staleCheck, older, if_true]
  · simp only [staleCheck, notNewer, ne, Bool.false_eq_true, if_false]

theorem staleCheck_of_equal : staleCheck .dropNotNewer (some ts) ts = .duplicate := by
  simp only [staleCheck, isNewer_self, Bool.false_eq_true, if_false, if_true]

theorem staleCheck_of_passing (h : last = none ∨ policy = .keep
      ∨ (∃ t, last = some t ∧ policy = .dropOlder ∧ isOlder ts t = false)
      ∨ (∃ t, last = some t ∧ policy = .dropNotNewer ∧ isNewer ts t = true)) :
    staleCheck policy last ts = .passes := by
  rcases h with rfl | rfl | ⟨t, rfl, rfl, notOlder⟩ | ⟨t, rfl, rfl, newer⟩
  · rfl
  · cases last <;> rfl
  · simp only [staleCheck, notOlder, Bool.false_eq_true, if_false]
  · simp only [staleCheck, newer, if_true]

end StaleCheck

/-! ## A hit record by its verdict and decimation count (R56, R57) -/

section Judge
variable {snap : Snapshot} {r : FieldRecord} (s : State) (f : FrameInProgress)

theorem State.judgeHit_of_stale (verdict : staleCheck snap.stale snap.lastTimestamp r.timestamp = .stale) :
    s.judgeHit f snap r =
      { s with classifier := { s.classifier with staleDrops := satInc s.classifier.staleDrops } }.setStage f
        (.update (updateOf snap .dropped none none)) := by
  simp only [State.judgeHit, verdict]

theorem State.judgeHit_of_duplicate (verdict : staleCheck snap.stale snap.lastTimestamp r.timestamp = .duplicate) :
    s.judgeHit f snap r =
      { s with classifier := { s.classifier with duplicateDrops := satInc s.classifier.duplicateDrops } }.setStage f
        (.update (updateOf snap .dropped none none)) := by
  simp only [State.judgeHit, verdict]

theorem State.judgeHit_of_kept (verdict : staleCheck snap.stale snap.lastTimestamp r.timestamp = .passes)
    (kept : snap.decimationCount = 0) :
    s.judgeHit f snap r =
      s.setStage f (.resolve (.bound snap r.timestamp ((snap.decimationCount + 1) % snap.decimation))) := by
  simp only [State.judgeHit, verdict, if_pos kept]

theorem State.judgeHit_of_thinned (verdict : staleCheck snap.stale snap.lastTimestamp r.timestamp = .passes)
    (thinned : snap.decimationCount ≠ 0) :
    s.judgeHit f snap r =
      { s with classifier := { s.classifier with thinned := satInc s.classifier.thinned } }.setStage f
        (.update (updateOf snap .thinned (some r.timestamp) (some ((snap.decimationCount + 1) % snap.decimation)))) := by
  simp only [State.judgeHit, verdict, if_neg thinned]

end Judge

/-! ## The rule search stage by the search's answer (R52, R53, R55) -/

section Search
variable {s : State} {f : FrameInProgress} {r : FieldRecord} {i : RuleIndex}

theorem State.searchStage_of_noMatch (h : s.inStage f r .ruleSearch) (answer : s.rules.search (f.key r) = none) :
    s.searchStage =
      (((s.countPort f.port fun c => { c with noMatch := satInc c.noMatch }).raise (srcUnmatched f.port)).recordEnds
        f).arbitrate := by
  obtain ⟨-, hframe, hrecord, hstage⟩ := h
  simp only [State.searchStage, FrameInProgress.record, hframe, hrecord, hstage, answer]

theorem State.searchStage_of_drop (h : s.inStage f r .ruleSearch) (answer : s.rules.search (f.key r) = some i)
    (drop : s.rules.active[i].action = .drop) :
    s.searchStage = (s.countPort f.port fun c => { c with ruleDrops := satInc c.ruleDrops }).recordEnds f := by
  obtain ⟨-, hframe, hrecord, hstage⟩ := h
  simp only [State.searchStage, FrameInProgress.record, hframe, hrecord, hstage, answer, drop]

theorem State.searchStage_of_place (h : s.inStage f r .ruleSearch) (answer : s.rules.search (f.key r) = some i)
    (place : s.rules.active[i].action = .place) :
    s.searchStage = s.setStage f (if s.rules.active[i].learn then
        .learn i s.rules.active[i].cls s.rules.active[i].stale
      else .resolve (.unbound i s.rules.active[i].cls)) := by
  obtain ⟨-, hframe, hrecord, hstage⟩ := h
  simp only [State.searchStage, FrameInProgress.record, hframe, hrecord, hstage, answer, place, apply_ite (s.setStage f)]

end Search

/-! ## The answer of the class map (R58) -/

section Resolve
variable {m : ClassMap} {cls : ClassId} {station : Station} {base size : Nat} {i : SpreadIndex} {l : LaneId}

theorem ClassMap.spreadAt_val (m : ClassMap) (i : SpreadIndex) : m.spreadAt i.val = m.spread[i] :=
  dif_pos i.isLt

theorem ClassMap.resolve_of_unset (h : m.classes[cls] = .unset) : m.resolve cls station = .classUnset := by
  simp only [ClassMap.resolve, h]

theorem ClassMap.resolve_of_fixed (h : m.classes[cls] = .fixed l) : m.resolve cls station = .lane l := by
  simp only [ClassMap.resolve, h]

theorem ClassMap.resolve_of_spread_none (h : m.classes[cls] = .spread base size)
    (hi : i.val = base + spreadFold station m.salt % size) (entry : m.spread[i] = none) :
    m.resolve cls station = .noLane := by
  simp only [ClassMap.resolve, h, ← hi, m.spreadAt_val, entry]

theorem ClassMap.resolve_of_spread_some (h : m.classes[cls] = .spread base size)
    (hi : i.val = base + spreadFold station m.salt % size) (entry : m.spread[i] = some l) :
    m.resolve cls station = .lane l := by
  simp only [ClassMap.resolve, h, ← hi, m.spreadAt_val, entry]

end Resolve

/-! ## The lane resolution stage by the map's answer (R58) -/

section ResolveStage
variable {s : State} {f : FrameInProgress} {r : FieldRecord} {route : Route}

theorem State.resolveStage_of_lane {l : LaneId} (h : s.inStage f r (.resolve route))
    (answer : s.map.resolve route.cls f.station = .lane l) : s.resolveStage = s.setStage f (.place route l) := by
  obtain ⟨-, hframe, -, hstage⟩ := h
  simp only [State.resolveStage, hframe, hstage, answer]

theorem State.resolveStage_of_classUnset (h : s.inStage f r (.resolve route))
    (answer : s.map.resolve route.cls f.station = .classUnset) :
    s.resolveStage = ({ s with classifier := { s.classifier with
      classUnsetDrops := satInc s.classifier.classUnsetDrops } } : State).routeEnds f route .dropped := by
  obtain ⟨-, hframe, -, hstage⟩ := h
  simp only [State.resolveStage, hframe, hstage, answer]

theorem State.resolveStage_of_noLane (h : s.inStage f r (.resolve route))
    (answer : s.map.resolve route.cls f.station = .noLane) :
    s.resolveStage = ({ s with classifier := { s.classifier with
      noLaneDrops := satInc s.classifier.noLaneDrops } } : State).routeEnds f route .dropped := by
  obtain ⟨-, hframe, -, hstage⟩ := h
  simp only [State.resolveStage, hframe, hstage, answer]

end ResolveStage

/-- A route's class is the one value that answers for its snapshot if it is a hit and for its rule if it is not. -/
theorem Route.cls_eq {route : Route} {cls : ClassId} (bound : ∀ snap ts n, route = .bound snap ts n → cls = snap.cls)
    (unbound : ∀ i k, route = .unbound i k → cls = k) : route.cls = cls := by
  cases route with
  | bound snap ts n => exact (bound snap ts n rfl).symm
  | unbound i k => exact (unbound i k rfl).symm

/-! ## The obligations -/

/-- Settles O15, by the stale verdict and, for a record that passes, the decimation count. -/
theorem hitRecordsAreJudged : Obligations.HitRecordsAreJudged := by
  intro s f snap r
  refine ⟨fun last hlast late => ?_, fun hlast policy => ?_, fun passing => ⟨fun kept => ?_, fun thinned => ?_⟩⟩
  · rw [s.judgeHit_of_stale f (by rw [hlast, staleCheck_of_late late])]
    rfl
  · rw [s.judgeHit_of_duplicate f (by rw [hlast, policy, staleCheck_of_equal])]
    rfl
  · rw [s.judgeHit_of_kept f (staleCheck_of_passing passing) kept]
    rfl
  · rw [s.judgeHit_of_thinned f (staleCheck_of_passing passing) thinned]
    rfl

/-- Settles O17, by the answer of the rule search and the action of the rule it found. -/
theorem ruleSearchTakesTheFirstMatch : Obligations.RuleSearchTakesTheFirstMatch := by
  intro s f r h
  rw [exec_ruleSearch_eq_searchStage h.1]
  refine ⟨fun noMatch => ?_, fun i selects => ⟨fun drop => ?_, fun place => ?_⟩⟩
  · rw [State.searchStage_of_noMatch h (RuleSet.search_none noMatch)]
    rfl
  · rw [State.searchStage_of_drop h (RuleSet.search_eq selects) drop]
    rfl
  · rw [State.searchStage_of_place h (RuleSet.search_eq selects) place]
    rfl

/-- Settles O19, by the answer of the class map; a drop counts at the Classifier, then the record ends by its route. -/
theorem laneResolutionByItsTable : Obligations.LaneResolutionByItsTable := by
  intro s f r route h cls bound unbound
  obtain rfl := Route.cls_eq bound unbound
  rw [exec_laneResolution_eq_resolveStage h.1]
  refine ⟨fun drop dropped => ?_, fun l found => ?_⟩
  · rcases dropped with ⟨unset, rfl⟩ | ⟨base, size, spread, ⟨i, hi, entry⟩, rfl⟩
    · rw [State.resolveStage_of_classUnset h (ClassMap.resolve_of_unset unset)]
      exact ⟨by rintro snap ts n rfl; rfl, by rintro i k rfl; rfl⟩
    · rw [State.resolveStage_of_noLane h (ClassMap.resolve_of_spread_none spread hi entry)]
      exact ⟨by rintro snap ts n rfl; rfl, by rintro i k rfl; rfl⟩
  · have answer : s.map.resolve route.cls f.station = .lane l := by
      rcases found with fixed | ⟨base, size, i, spread, hi, entry⟩
      · exact ClassMap.resolve_of_fixed fixed
      · exact ClassMap.resolve_of_spread_some spread hi entry
    rw [State.resolveStage_of_lane h answer]
    rfl

end Sys2Proof.Machine

/-! The blocks that each command may change, in one table. It settles O1, O3, O4 and O50. -/

namespace Sys2Proof.Machine

/-! ## Footprints -/

/-- The blocks that an event may change. `link` is the link state of the trunk and `epochs` the two epochs of the
Management Unit: few events change them, where many change their blocks. -/
structure Footprint where
  (ports classifier streams rules map pool lanes trunk link mu epochs notices : Bool := false)

/-- Every block of `a` is a block of `b`. -/
def Footprint.within (a b : Footprint) : Bool :=
  (!a.ports || b.ports) && (!a.classifier || b.classifier) && (!a.streams || b.streams) && (!a.rules || b.rules)
    && (!a.map || b.map) && (!a.pool || b.pool) && (!a.lanes || b.lanes) && (!a.trunk || b.trunk) && (!a.link || b.link)
    && (!a.mu || b.mu) && (!a.epochs || b.epochs) && (!a.notices || b.notices)

/-- Two Management Units with the same current epoch and the same last epoch used. -/
def Mu.SameEpochs (m m' : Mu) : Prop := m'.epoch = m.epoch ∧ m'.lastEpoch = m.lastEpoch

/-- `t` is `s` but for the blocks of a footprint. Device time, the reset line and the field lines are in no footprint, and
neither are the model's own fields. -/
structure State.Keeps (fp : Footprint) (s t : State) : Prop where
  line : t.resetN = s.resetN ∧ t.lines = s.lines ∧ t.deviceTime = s.deviceTime
  own : t.freeCount = s.freeCount ∧ t.pending = s.pending
  ports : fp.ports = false → t.ports = s.ports
  classifier : fp.classifier = false → t.classifier = s.classifier
  streams : fp.streams = false → t.streams = s.streams
  rules : fp.rules = false → t.rules = s.rules
  map : fp.map = false → t.map = s.map
  pool : fp.pool = false → t.pool = s.pool
  lanes : fp.lanes = false → t.lanes = s.lanes
  trunk : fp.trunk = false → t.trunk = s.trunk
  link : fp.link = false → t.trunk.linkUp = s.trunk.linkUp
  mu : fp.mu = false → t.mu = s.mu
  epochs : fp.epochs = false → s.mu.SameEpochs t.mu
  notices : fp.notices = false → t.notices = s.notices

section Keeps
variable {a b : Footprint} {s t u : State}

theorem Mu.SameEpochs.refl (m : Mu) : m.SameEpochs m := ⟨rfl, rfl⟩

theorem State.Keeps.refl (fp : Footprint) (s : State) : s.Keeps fp s where
  line := ⟨rfl, rfl, rfl⟩
  own := ⟨rfl, rfl⟩
  ports _ := rfl
  classifier _ := rfl
  streams _ := rfl
  rules _ := rfl
  map _ := rfl
  pool _ := rfl
  lanes _ := rfl
  trunk _ := rfl
  link _ := rfl
  mu _ := rfl
  epochs _ := ⟨rfl, rfl⟩
  notices _ := rfl

theorem State.Keeps.trans (h : s.Keeps a t) (h' : t.Keeps a u) : s.Keeps a u where
  line := ⟨h'.line.1.trans h.line.1, h'.line.2.1.trans h.line.2.1, h'.line.2.2.trans h.line.2.2⟩
  own := ⟨h'.own.1.trans h.own.1, h'.own.2.trans h.own.2⟩
  ports e := (h'.ports e).trans (h.ports e)
  classifier e := (h'.classifier e).trans (h.classifier e)
  streams e := (h'.streams e).trans (h.streams e)
  rules e := (h'.rules e).trans (h.rules e)
  map e := (h'.map e).trans (h.map e)
  pool e := (h'.pool e).trans (h.pool e)
  lanes e := (h'.lanes e).trans (h.lanes e)
  trunk e := (h'.trunk e).trans (h.trunk e)
  link e := (h'.link e).trans (h.link e)
  mu e := (h'.mu e).trans (h.mu e)
  epochs e := ⟨(h'.epochs e).1.trans (h.epochs e).1, (h'.epochs e).2.trans (h.epochs e).2⟩
  notices e := (h'.notices e).trans (h.notices e)

theorem State.Keeps.mono (h : s.Keeps a t) (hab : a.within b = true) : s.Keeps b t := by
  simp only [Footprint.within, Bool.and_eq_true, Bool.or_eq_true, Bool.not_eq_true'] at hab
  obtain ⟨⟨⟨⟨⟨⟨⟨⟨⟨⟨⟨ports, classifier⟩, streams⟩, rules⟩, map⟩, pool⟩, lanes⟩, trunk⟩, link⟩, mu⟩, epochs⟩, notices⟩ := hab
  have absent {x y : Bool} (h : x = false ∨ y = true) (e : y = false) : x = false := h.resolve_right (by simp [e])
  exact {
    line := h.line
    own := h.own
    ports := fun e => h.ports (absent ports e)
    classifier := fun e => h.classifier (absent classifier e)
    streams := fun e => h.streams (absent streams e)
    rules := fun e => h.rules (absent rules e)
    map := fun e => h.map (absent map e)
    pool := fun e => h.pool (absent pool e)
    lanes := fun e => h.lanes (absent lanes e)
    trunk := fun e => h.trunk (absent trunk e)
    link := fun e => h.link (absent link e)
    mu := fun e => h.mu (absent mu e)
    epochs := fun e => h.epochs (absent epochs e)
    notices := fun e => h.notices (absent notices e) }

/-- The blocks of two footprints. -/
def Footprint.union (a b : Footprint) : Footprint where
  ports := a.ports || b.ports
  classifier := a.classifier || b.classifier
  streams := a.streams || b.streams
  rules := a.rules || b.rules
  map := a.map || b.map
  pool := a.pool || b.pool
  lanes := a.lanes || b.lanes
  trunk := a.trunk || b.trunk
  link := a.link || b.link
  mu := a.mu || b.mu
  epochs := a.epochs || b.epochs
  notices := a.notices || b.notices

/-- One event after another. -/
theorem State.Keeps.andThen (h : s.Keeps a t) (h' : t.Keeps b u) : s.Keeps (a.union b) u := by
  have left (x y : Bool) : (!x || (x || y)) = true := by cases x <;> rfl
  have right (x y : Bool) : (!y || (x || y)) = true := by cases x <;> cases y <;> rfl
  refine (h.mono ?_).trans (h'.mono ?_)
  · simp only [Footprint.within, Footprint.union, left, Bool.and_self]
  · simp only [Footprint.within, Footprint.union, right, Bool.and_self]

theorem State.Keeps.andThenIn {c : Footprint} (h : s.Keeps a t) (h' : t.Keeps b u) (hc : (a.union b).within c = true) :
    s.Keeps c u :=
  (h.andThen h').mono hc

/-- A frame equation is a footprint, with what is said apart of the link and of the epochs. -/
theorem State.Keeps.of_eq {fp : Footprint}
    (h : t = { s with
      ports := bif fp.ports then t.ports else s.ports
      classifier := bif fp.classifier then t.classifier else s.classifier
      streams := bif fp.streams then t.streams else s.streams
      rules := bif fp.rules then t.rules else s.rules
      map := bif fp.map then t.map else s.map
      pool := bif fp.pool then t.pool else s.pool
      lanes := bif fp.lanes then t.lanes else s.lanes
      trunk := bif fp.trunk then t.trunk else s.trunk
      mu := bif fp.mu then t.mu else s.mu
      notices := bif fp.notices then t.notices else s.notices })
    (hlink : fp.trunk = false ∨ fp.link = true ∨ t.trunk.linkUp = s.trunk.linkUp)
    (hepochs : fp.mu = false ∨ fp.epochs = true ∨ s.mu.SameEpochs t.mu) : s.Keeps fp t where
  line := by rw [h]; exact ⟨rfl, rfl, rfl⟩
  own := by rw [h]; exact ⟨rfl, rfl⟩
  ports e := by rw [h]; simp only [e, cond_false]
  classifier e := by rw [h]; simp only [e, cond_false]
  streams e := by rw [h]; simp only [e, cond_false]
  rules e := by rw [h]; simp only [e, cond_false]
  map e := by rw [h]; simp only [e, cond_false]
  pool e := by rw [h]; simp only [e, cond_false]
  lanes e := by rw [h]; simp only [e, cond_false]
  trunk e := by rw [h]; simp only [e, cond_false]
  link e := by
    cases trunk : fp.trunk with
    | false => rw [h]; simp only [trunk, cond_false]
    | true => exact (hlink.resolve_left (by simp [trunk])).resolve_left (by simp [e])
  mu e := by rw [h]; simp only [e, cond_false]
  epochs e := by
    cases mu : fp.mu with
    | false => rw [h]; simp only [mu, cond_false]; exact ⟨rfl, rfl⟩
    | true => exact (hepochs.resolve_left (by simp [mu])).resolve_left (by simp [e])
  notices e := by rw [h]; simp only [e, cond_false]

end Keeps

/-! ## The shared operations -/

section Operations
variable (s : State)

theorem State.setPort_keeps (p : PortId) (x : Port) : s.Keeps { ports := true } (s.setPort p x) := .of_eq rfl (.inl rfl) (.inl rfl)

theorem State.countPort_keeps (p : PortId) (f : PortCounters → PortCounters) : s.Keeps { ports := true } (s.countPort p f) :=
  .of_eq rfl (.inl rfl) (.inl rfl)

theorem State.setLane_keeps (l : LaneId) (x : Lane) : s.Keeps { lanes := true } (s.setLane l x) := .of_eq rfl (.inl rfl) (.inl rfl)

theorem State.countTrunk_keeps (f : TrunkCounters → TrunkCounters) : s.Keeps { trunk := true } (s.countTrunk f) :=
  .of_eq rfl (.inr (.inr rfl)) (.inl rfl)

theorem State.raise_keeps (i : SourceNo) : s.Keeps { notices := true } (s.raise i) := .of_eq rfl (.inl rfl) (.inl rfl)

theorem State.notify_keeps (k : NoticeKind) (l : LaneId) : s.Keeps { notices := true } (s.notify k l) := .of_eq rfl (.inl rfl) (.inl rfl)

theorem State.finish_keeps (c : Command) (st : Status) (bytes : List Byte) : s.Keeps { mu := true } (s.finish c st bytes) :=
  .of_eq rfl (.inl rfl) (.inr (.inr ⟨rfl, rfl⟩))

theorem State.setStage_keeps (f : FrameInProgress) (g : Stage) : s.Keeps { classifier := true } (s.setStage f g) := .of_eq rfl (.inl rfl) (.inl rfl)

theorem State.beginRecord_keeps (f : FrameInProgress) (i : Nat) :
    s.Keeps { ports := true, classifier := true } (s.beginRecord f i) := .of_eq rfl (.inl rfl) (.inl rfl)

theorem Trunk.placeResponse_linkUp (t : Trunk) (r : Response) : (t.placeResponse r).linkUp = t.linkUp := by
  unfold Trunk.placeResponse
  split <;> rfl

theorem State.endCommand_keeps (c : Command) (r : Response) : s.Keeps { trunk := true, mu := true } (s.endCommand c r) :=
  .of_eq rfl (.inr (.inr (Trunk.placeResponse_linkUp _ r))) (.inr (.inr ⟨rfl, rfl⟩))

theorem State.startResponse_keeps (r : Response) (rest : List Response) :
    s.Keeps { trunk := true, mu := true } (s.startResponse r rest) := by
  have start : s.Keeps { trunk := true, mu := true } { s with trunk := { s.trunk with
      responses := rest, outbound := some (.response r (r.frame s.trunk.unit)) } } :=
    .of_eq rfl (.inr (.inr rfl)) (.inr (.inr ⟨rfl, rfl⟩))
  unfold State.startResponse
  dsimp only
  split
  · exact start
  · split
    · exact start.andThen (State.endCommand_keeps _ _ _)
    · exact start

theorem State.arbitrate_keeps : s.Keeps { trunk := true, mu := true } s.arbitrate := by
  unfold State.arbitrate
  split
  · split
    · exact s.startResponse_keeps _ _
    · split
      · exact .of_eq rfl (.inr (.inr rfl)) (.inr (.inr ⟨rfl, rfl⟩))
      · split
        · exact .refl _ s
        · split
          · exact .of_eq rfl (.inr (.inr rfl)) (.inr (.inr ⟨rfl, rfl⟩))
          · exact .refl _ s
  · exact .refl _ s

theorem State.freeCells_keeps (n : Nat) : s.Keeps { pool := true } (s.freeCells n) := .of_eq (s.freeCells_frame n) (.inl rfl) (.inl rfl)

theorem State.allocate_keeps {s s' : State} {n : Nat} (h : s.allocate n = some s') :
    s.Keeps { pool := true, notices := true } s' := .of_eq (State.allocate_frame _ _ _ h) (.inl rfl) (.inl rfl)

theorem State.place_keeps (l : LaneId) (q : PlacementRequest) :
    s.Keeps { lanes := true, pool := true, notices := true } (s.place l q).1 := .of_eq (s.place_frame l q) (.inl rfl) (.inl rfl)

theorem State.disableLane_keeps (l : LaneId) : s.Keeps { lanes := true, pool := true, trunk := true } (s.disableLane l) :=
  .of_eq (s.disableLane_frame l) (.inr (.inr (s.disableLane_linkUp l))) (.inl rfl)

theorem State.drainCheck_keeps (l : LaneId) :
    s.Keeps { lanes := true, pool := true, trunk := true, notices := true } (s.drainCheck l) := by
  unfold State.drainCheck
  split
  · exact (s.disableLane_keeps l).andThen (State.notify_keeps _ _ _)
  · exact .refl _ s

theorem State.applyAck_keeps (l : LaneId) (ack : SeqNo) :
    s.Keeps { lanes := true, pool := true, trunk := true } (s.applyAck l ack) := by
  refine .of_eq (s.applyAck_frame l ack) (.inr (.inr ?_)) (.inl rfl)
  unfold State.applyAck
  dsimp only
  split
  · rfl
  · exact State.discards_linkUp _ _ _

theorem State.applyGrant_keeps (l : LaneId) (g : SeqNo) : s.Keeps { lanes := true, trunk := true } (s.applyGrant l g) := by
  unfold State.applyGrant
  dsimp only
  split
  · exact (s.setLane_keeps l _).andThen (State.countTrunk_keeps _ _)
  · exact (s.setLane_keeps l _).mono rfl
  · exact (s.setLane_keeps l _).mono rfl

theorem State.applyResend_keeps (l : LaneId) (x : Option SeqNo) : s.Keeps { lanes := true } (s.applyResend l x) :=
  .of_eq (s.applyResend_frame l x) (.inl rfl) (.inl rfl)

theorem State.refuseUpdate_keeps : s.Keeps { trunk := true, notices := true } s.refuseUpdate :=
  (s.countTrunk_keeps _).andThen (State.raise_keeps _ _)

theorem State.applyUpdate_keeps (u : LaneUpdate) :
    s.Keeps { lanes := true, pool := true, trunk := true, notices := true } (s.applyUpdate u) := by
  unfold State.applyUpdate
  dsimp only
  split
  · exact s.refuseUpdate_keeps.mono rfl
  · have parts : s.Keeps { lanes := true, pool := true, trunk := true }
        (((s.applyAck u.lane u.ack).applyGrant u.lane u.grant).applyResend u.lane u.resendFrom) :=
      ((s.applyAck_keeps _ _).trans ((State.applyGrant_keeps _ _ _).mono rfl)).trans ((State.applyResend_keeps _ _ _).mono rfl)
    split
    · exact (parts.andThen (State.refuseUpdate_keeps _) : s.Keeps _ _).trans (State.drainCheck_keeps _ _)
    · exact parts.andThen (State.drainCheck_keeps _ _)

theorem State.sendStartAt_keeps {s t : State} {l : LaneId} (h : s.sendStartAt l = some t) :
    s.Keeps { lanes := true, trunk := true } t := by
  refine .of_eq (State.sendStartAt_frame s t l h) (.inr (.inr ?_)) (.inl rfl)
  unfold State.sendStartAt at h
  dsimp only at h
  split at h
  · cases h
  · split at h
    · split at h
      · cases h; rfl
      · cases h
    · split at h
      · split at h
        · cases h; rfl
        · cases h
      · cases h

theorem State.clearWire_keeps : s.Keeps { trunk := true, pool := true } s.clearWire :=
  .of_eq s.clearWire_frame (.inr (.inr (by rw [s.clearWire_trunk]))) (.inl rfl)

theorem State.cutFrame_keeps : s.Keeps { lanes := true, trunk := true } s.cutFrame :=
  .of_eq s.cutFrame_frame (.inr (.inr s.cutFrame_linkUp)) (.inl rfl)

theorem Mu.setProgress_sameEpochs (m : Mu) (p : Progress) : m.SameEpochs (m.setProgress p) := ⟨rfl, rfl⟩

theorem Mu.abandonDone_sameEpochs (m : Mu) : m.SameEpochs m.abandonDone := by
  unfold Mu.abandonDone
  split
  · exact m.setProgress_sameEpochs _
  · exact .refl m

theorem Mu.cutEnded_sameEpochs (m : Mu) : m.SameEpochs m.cutEnded := by
  unfold Mu.cutEnded
  split
  · exact m.setProgress_sameEpochs _
  · exact .refl m

theorem State.endFrame_keeps (f : FrameInProgress) :
    s.Keeps { ports := true, classifier := true, mu := true } (s.endFrame f) := by
  refine .of_eq (s.endFrame_frame f) (.inl rfl) (.inr (.inr ?_))
  unfold State.endFrame
  dsimp only
  split
  · exact Mu.abandonDone_sameEpochs _
  · exact .refl _

theorem State.recordEnds_keeps (f : FrameInProgress) :
    s.Keeps { ports := true, classifier := true, mu := true } (s.recordEnds f) := by
  unfold State.recordEnds
  split
  · exact s.endFrame_keeps f
  · exact (s.beginRecord_keeps f _).mono rfl

theorem State.routeEnds_keeps (f : FrameInProgress) (route : Route) (o : UpdateOutcome) :
    s.Keeps { ports := true, classifier := true, mu := true } (s.routeEnds f route o) := by
  unfold State.routeEnds
  split
  · exact (s.setStage_keeps f _).mono rfl
  · exact s.recordEnds_keeps f

theorem State.judgeHit_keeps (f : FrameInProgress) (snap : Snapshot) (r : FieldRecord) :
    s.Keeps { classifier := true } (s.judgeHit f snap r) := .of_eq (s.judgeHit_frame f snap r) (.inl rfl) (.inl rfl)

theorem State.dispatchUpdate_keeps (u : RawUpdate) : s.Keeps { trunk := true, notices := true } (s.dispatchUpdate u) := by
  unfold State.dispatchUpdate
  split
  · exact .of_eq rfl (.inr (.inr rfl)) (.inl rfl)
  · exact s.refuseUpdate_keeps

theorem State.dispatch_keeps (x : InboundContent) : s.Keeps { trunk := true, notices := true } (s.dispatch x) := by
  have updates (us : List RawUpdate) (t : State) :
      t.Keeps { trunk := true, notices := true } (us.foldl State.dispatchUpdate t) := by
    induction us generalizing t with
    | nil => exact .refl _ t
    | cons u us ih => exact (t.dispatchUpdate_keeps u).trans (ih _)
  unfold State.dispatch
  split
  · exact (s.countTrunk_keeps _).andThen (updates _ _)
  · exact .of_eq rfl (.inr (.inr rfl)) (.inl rfl)

end Operations

end Sys2Proof.Machine

/-! The events of the data path and of the trunk, by their footprints. -/

namespace Sys2Proof.Machine

/-! ## The events -/

section Events
variable (s : State)

theorem State.takeFrame_keeps : s.Keeps { ports := true, classifier := true } s.takeFrame := by
  unfold State.takeFrame
  split
  · split
    · have position (p : PortId) (q : Port) : s.Keeps { ports := true, classifier := true }
          { s.setPort p q with classifier := { s.classifier with position := p + 1 } } := .of_eq rfl (.inl rfl) (.inl rfl)
      dsimp only
      split
      · exact (position _ _).trans (State.beginRecord_keeps _ _ _)
      · exact (position _ _).trans ((State.countPort_keeps _ _ _).andThenIn (State.setPort_keeps _ _ _) rfl)
    · exact .refl _ s
  · exact .refl _ s

theorem State.lookupStage_keeps : s.Keeps { classifier := true } s.lookupStage := by
  unfold State.lookupStage
  split
  · split
    · split
      · exact s.judgeHit_keeps _ _ _
      · exact s.setStage_keeps _ _
    · exact .refl _ s
  · exact .refl _ s

theorem State.searchStage_keeps :
    s.Keeps { ports := true, notices := true, classifier := true, mu := true, trunk := true } s.searchStage := by
  unfold State.searchStage
  split
  · split
    · split
      · exact (((s.countPort_keeps _ _).andThen (State.raise_keeps _ _) : s.Keeps
          { ports := true, notices := true } _).andThen (State.recordEnds_keeps _ _) : s.Keeps
          { ports := true, notices := true, classifier := true, mu := true } _).andThen (State.arbitrate_keeps _)
      · dsimp only
        split
        · exact (s.countPort_keeps _ _).andThenIn (State.recordEnds_keeps _ _) rfl
        · split
          · exact (s.setStage_keeps _ _).mono rfl
          · exact (s.setStage_keeps _ _).mono rfl
    · exact .refl _ s
  · exact .refl _ s

theorem State.learnStage_keeps :
    s.Keeps { streams := true, classifier := true, notices := true, mu := true, trunk := true } s.learnStage := by
  unfold State.learnStage
  split
  · split
    · have table (t : StreamTable) : s.Keeps { streams := true } { s with streams := t } := .of_eq rfl (.inl rfl) (.inl rfl)
      dsimp only
      split
      · exact (table _).andThenIn (State.judgeHit_keeps _ _ _ _) rfl
      · exact (table _).andThenIn (State.judgeHit_keeps _ _ _ _) rfl
      · exact (((table _).andThen (State.raise_keeps _ _) : s.Keeps { streams := true, notices := true } _).andThen
          (State.setStage_keeps _ _ _) : s.Keeps { streams := true, notices := true, classifier := true } _).andThen
          (State.arbitrate_keeps _)
    · exact .refl _ s
  · exact .refl _ s

theorem State.resolveStage_keeps : s.Keeps { ports := true, classifier := true, mu := true } s.resolveStage := by
  unfold State.resolveStage
  split
  · split
    · have drops (x : Classifier) : s.Keeps { classifier := true } { s with classifier := x } := .of_eq rfl (.inl rfl) (.inl rfl)
      split
      · exact (s.setStage_keeps _ _).mono rfl
      · exact (drops _).andThen (State.routeEnds_keeps _ _ _ _)
      · exact (drops _).andThen (State.routeEnds_keeps _ _ _ _)
    · exact .refl _ s
  · exact .refl _ s

theorem State.placeStage_keeps : s.Keeps
    { lanes := true, pool := true, notices := true, ports := true, classifier := true, mu := true, trunk := true }
    s.placeStage := by
  unfold State.placeStage
  split
  · split
    · exact ((s.place_keeps _ _).andThen (State.routeEnds_keeps _ _ _ _) : s.Keeps
        { lanes := true, pool := true, notices := true, ports := true, classifier := true, mu := true } _).andThen
        (State.arbitrate_keeps _)
    · exact .refl _ s
  · exact .refl _ s

theorem State.updateStage_keeps :
    s.Keeps { streams := true, ports := true, classifier := true, mu := true } s.updateStage := by
  unfold State.updateStage
  split
  · split
    · have table (t : StreamTable) : s.Keeps { streams := true } { s with streams := t } := .of_eq rfl (.inl rfl) (.inl rfl)
      exact (table _).andThen (State.recordEnds_keeps _ _)
    · exact .refl _ s
  · exact .refl _ s

theorem State.fieldByte_keeps (p : PortId) (b : Byte) :
    s.Keeps { ports := true, notices := true, trunk := true, mu := true } (s.fieldByte p b) := by
  unfold State.fieldByte
  dsimp only
  split
  · split
    · exact (s.setPort_keeps _ _).mono rfl
    · split
      · exact ((s.setPort_keeps _ _).andThen (State.raise_keeps _ _) : s.Keeps
          { ports := true, notices := true } _).andThen (State.arbitrate_keeps _)
      · exact (s.setPort_keeps _ _).mono rfl
  · exact .refl _ s

theorem State.badFrameEnds_keeps (p : PortId) (f : PortCounters → PortCounters) :
    s.Keeps { ports := true, notices := true, trunk := true, mu := true } (s.badFrameEnds p f) := by
  unfold State.badFrameEnds
  dsimp only
  split
  · exact ((s.setPort_keeps _ _).andThen (State.raise_keeps _ _) : s.Keeps
      { ports := true, notices := true } _).andThen (State.arbitrate_keeps _)
  · exact (s.setPort_keeps _ _).mono rfl

theorem State.fieldEnd_keeps (p : PortId) :
    s.Keeps { ports := true, notices := true, trunk := true, mu := true } (s.fieldEnd p) := by
  have port (x : Port) : s.Keeps { ports := true, notices := true, trunk := true, mu := true } (s.setPort p x) :=
    (s.setPort_keeps p x).mono rfl
  unfold State.fieldEnd
  dsimp only
  split
  · exact .refl _ s
  · exact s.badFrameEnds_keeps _ _
  · split
    · exact s.badFrameEnds_keeps _ _
    · split
      · exact s.badFrameEnds_keeps _ _
      · split <;> exact port _
  · exact port _
  · exact port _
  · exact port _

theorem State.takeUpdate_keeps :
    s.Keeps { lanes := true, pool := true, trunk := true, notices := true, mu := true } s.takeUpdate := by
  have rest (h : List Handover) : s.Keeps { trunk := true } { s with trunk := { s.trunk with handed := h } } :=
    .of_eq rfl (.inr (.inr rfl)) (.inl rfl)
  unfold State.takeUpdate
  split
  · exact .refl _ s
  · exact .refl _ s
  · dsimp only
    split
    · exact (rest _).andThenIn (State.countTrunk_keeps _ _) rfl
    · have applied (h : List Handover) (u : LaneUpdate) := (rest h).andThen (State.applyUpdate_keeps _ u)
      split
      · exact (rest _).andThenIn (State.countTrunk_keeps _ _) rfl
      · exact (applied _ _).andThen (State.arbitrate_keeps _)
      · exact (applied _ _).andThen (State.arbitrate_keeps _)
      · exact (applied _ _).andThen (State.arbitrate_keeps _)

theorem State.takeSendStart_keeps : s.Keeps { lanes := true, trunk := true, mu := true } s.takeSendStart := by
  have taken : s.Keeps { trunk := true } { s with trunk := { s.trunk with request := .none } } := .of_eq rfl (.inr (.inr rfl)) (.inl rfl)
  unfold State.takeSendStart
  split
  · dsimp only
    split
    · rename_i t ht
      exact taken.andThenIn (State.sendStartAt_keeps ht) rfl
    · exact taken.andThenIn (State.arbitrate_keeps _) rfl
  · exact .refl _ s
  · exact .refl _ s

theorem State.retransmitExpiry_keeps (l : LaneId) :
    s.Keeps { lanes := true, notices := true, trunk := true, mu := true } (s.retransmitExpiry l) := by
  unfold State.retransmitExpiry
  split
  · dsimp only
    split
    · exact ((s.setLane_keeps _ _).andThen (State.notify_keeps _ _ _) : s.Keeps
        { lanes := true, notices := true } _).andThen (State.arbitrate_keeps _)
    · exact (s.setLane_keeps _ _).andThenIn (State.arbitrate_keeps _) rfl
  · exact .refl _ s

theorem State.takeHandoff_keeps (l : LaneId) : s.Keeps { lanes := true, trunk := true, mu := true }
    (if (s.lane l).offered.isSome then (s.setLane l ((s.lane l).settle l)).arbitrate else s) := by
  split
  · exact (s.setLane_keeps _ _).andThen (State.arbitrate_keeps _)
  · exact .refl _ s

theorem State.gainLock_keeps : s.Keeps { link := true, lanes := true, trunk := true, mu := true } s.gainLock := by
  unfold State.gainLock
  split
  · exact .refl _ s
  · have up (lanes : Vector Lane 16) : s.Keeps { link := true, lanes := true, trunk := true }
        { s with trunk := { s.trunk with linkUp := true }, lanes := lanes } := .of_eq rfl (.inr (.inl rfl)) (.inl rfl)
    exact (up _).andThen (State.arbitrate_keeps _)

theorem State.loseLock_keeps :
    s.Keeps { link := true, lanes := true, pool := true, trunk := true, mu := true, epochs := true } s.loseLock := by
  unfold State.loseLock
  split
  · have down (trunk : Trunk) (lanes : Vector Lane 16) (mu : Mu) :
        s.Keeps { link := true, lanes := true, pool := true, trunk := true, mu := true, epochs := true }
          { s.clearWire with trunk := trunk, lanes := lanes, mu := mu } :=
      s.clearWire_keeps.andThen (.of_eq (fp := { link := true, lanes := true, trunk := true, mu := true, epochs := true }) rfl (.inr (.inl rfl)) (.inr (.inl rfl)))
    dsimp only
    split
    · exact down _ _ _
    · split
      · exact (down _ _ _).andThen (State.endCommand_keeps _ _ _)
      · exact down _ _ _
  · exact .refl _ s

theorem State.judgeArrival_keeps (c : Command) : s.Keeps { trunk := true, mu := true } (s.judgeArrival c) := by
  have counted (m : Mu) (h : s.mu.SameEpochs m) : s.Keeps { trunk := true, mu := true } { s with mu := m } :=
    .of_eq rfl (.inr (.inr rfl)) (.inr (.inr h))
  have answered (r : Response) (m : Mu) (h : s.mu.SameEpochs m) :
      s.Keeps { trunk := true, mu := true } { s with trunk := s.trunk.placeResponse r, mu := m } :=
    .of_eq rfl (.inr (.inr (Trunk.placeResponse_linkUp _ r))) (.inr (.inr h))
  unfold State.judgeArrival
  split
  · exact counted _ ⟨rfl, rfl⟩
  · split
    · split
      · exact (answered _ s.mu.countReplay ⟨rfl, rfl⟩).trans (State.arbitrate_keeps _)
      · exact counted _ ⟨rfl, rfl⟩
    · split
      · exact counted _ ⟨rfl, rfl⟩
      · split
        · split
          · exact (answered _ s.mu.countBusy ⟨rfl, rfl⟩).trans (State.arbitrate_keeps _)
          · exact counted _ ⟨rfl, rfl⟩
        · exact counted _ ⟨rfl, rfl⟩

theorem State.takeArrival_keeps : s.Keeps { trunk := true, mu := true } s.takeArrival := by
  have rest (h : List Handover) : s.Keeps { trunk := true } { s with trunk := { s.trunk with handed := h } } :=
    .of_eq rfl (.inr (.inr rfl)) (.inl rfl)
  unfold State.takeArrival
  split
  · exact (rest _).andThen (State.judgeArrival_keeps _ _)
  · exact .refl _ s

theorem State.commandEnds_keeps : s.Keeps { trunk := true, mu := true } s.commandEnds := by
  unfold State.commandEnds
  split
  · split
    · exact (s.endCommand_keeps _ _).trans (State.arbitrate_keeps _)
    · exact .refl _ s
  · exact .refl _ s

theorem Trunk.startInbound_linkUp (t : Trunk) : t.startInbound.linkUp = t.linkUp := by
  unfold Trunk.startInbound
  split <;> rfl

theorem Trunk.inboundByte_linkUp (t : Trunk) (b : Byte) : (t.inboundByte b).linkUp = t.linkUp := by
  unfold Trunk.inboundByte
  split <;> rfl

theorem State.judgeInbound_keeps (bytes : List Byte) :
    s.Keeps { trunk := true, notices := true, mu := true } (s.judgeInbound bytes) := by
  have counted (f : TrunkCounters → TrunkCounters) : s.Keeps { trunk := true, notices := true, mu := true } (s.countTrunk f) :=
    (s.countTrunk_keeps f).mono rfl
  unfold State.judgeInbound
  split
  · exact counted _
  · split
    · exact counted _
    · split
      · exact counted _
      · split
        · exact counted _
        · split
          · exact ((counted _).andThen (State.dispatch_keeps _ _) : s.Keeps
              { trunk := true, notices := true, mu := true } _).andThen (State.arbitrate_keeps _)
          · exact counted _

theorem State.inboundEnd_keeps : s.Keeps { trunk := true, notices := true, mu := true } s.inboundEnd := by
  have cleared : s.Keeps { trunk := true } { s with trunk := { s.trunk with inbound := none } } := .of_eq rfl (.inr (.inr rfl)) (.inl rfl)
  unfold State.inboundEnd
  dsimp only
  split
  · exact cleared.andThen (State.judgeInbound_keeps _ _)
  · exact cleared.andThenIn (State.countTrunk_keeps _ _) rfl
  · exact .refl _ s

theorem State.takeBatchRequest_keeps : s.Keeps { trunk := true, notices := true, mu := true } s.takeBatchRequest := by
  have taken : s.Keeps { trunk := true } { s with trunk := { s.trunk with request := .none } } := .of_eq rfl (.inr (.inr rfl)) (.inl rfl)
  unfold State.takeBatchRequest
  split
  · dsimp only
    split
    · exact .of_eq rfl (.inr (.inr rfl)) (.inr (.inr ⟨rfl, rfl⟩))
    · exact taken.andThenIn (State.arbitrate_keeps _) rfl
  · exact .refl _ s
  · exact .refl _ s

theorem State.wireCleared_keeps :
    s.Keeps { trunk := true, pool := true, mu := true } s.clearWire.countFrameOut.arbitrate :=
  (s.clearWire_keeps.andThen (State.countTrunk_keeps _ _) : s.Keeps { trunk := true, pool := true } _).andThen
    (State.arbitrate_keeps _)

theorem State.frameOutEnds_keeps : s.Keeps { trunk := true, pool := true, mu := true } s.frameOutEnds := by
  unfold State.frameOutEnds
  split
  · exact s.wireCleared_keeps
  · exact s.wireCleared_keeps
  · exact .refl _ s
  · exact .refl _ s

theorem State.bundleFrameEnds_keeps : s.Keeps { trunk := true, pool := true, mu := true } s.bundleFrameEnds := by
  unfold State.bundleFrameEnds
  split
  · exact s.wireCleared_keeps
  · exact .refl _ s

theorem State.cutFrameEnds_keeps : s.Keeps { trunk := true, pool := true, mu := true } s.cutFrameEnds := by
  unfold State.cutFrameEnds
  split
  · have ended : s.Keeps { trunk := true, pool := true, mu := true } { s.clearWire with mu := s.mu.cutEnded } := by
      refine s.clearWire_keeps.andThen (.of_eq (fp := { mu := true }) rfl (.inl rfl) (.inr (.inr ?_)))
      rw [(s.clearWire_keeps).mu rfl]
      exact s.mu.cutEnded_sameEpochs
    exact ended.andThen (State.arbitrate_keeps _)
  · exact .refl _ s

theorem State.setProgress_keeps (p : Progress) : s.Keeps { mu := true } { s with mu := s.mu.setProgress p } :=
  .of_eq rfl (.inl rfl) (.inr (.inr (Mu.setProgress_sameEpochs _ _)))

theorem State.phase3_keeps : s.Keeps { lanes := true, trunk := true, mu := true } s.phase3 := by
  unfold State.phase3
  split
  · exact s.cutFrame_keeps.andThen (State.setProgress_keeps _ _)
  · exact .refl _ s

theorem State.disableLanes_keeps : s.Keeps { lanes := true, pool := true, trunk := true } s.disableLanes := by
  have each (ls : List LaneId) (t : State) :
      t.Keeps { lanes := true, pool := true, trunk := true } (ls.foldl State.disableLane t) := by
    induction ls generalizing t with
    | nil => exact .refl _ t
    | cons l ls ih => exact (t.disableLane_keeps l).trans (ih _)
  exact each _ s

theorem State.resetEnds_keeps : s.Keeps { pool := true, streams := true, ports := true } s.resetEnds :=
  .of_eq rfl (.inl rfl) (.inl rfl)

theorem State.phase4_keeps : s.Keeps
    { lanes := true, pool := true, trunk := true, streams := true, ports := true, mu := true } s.phase4 := by
  unfold State.phase4
  split
  · exact (s.disableLanes_keeps.andThen (State.resetEnds_keeps _)).andThen (State.setProgress_keeps _ _)
  · exact .refl _ s

theorem State.clearOwner_keeps (o : CounterOwner) : s.Keeps
    { ports := true, classifier := true, streams := true, pool := true, lanes := true, trunk := true, mu := true, notices := true }
    (s.clearOwner o) :=
  .of_eq (s.clearOwner_frame o) (.inr (.inr (by cases o <;> rfl))) (.inr (.inr (by cases o <;> exact ⟨rfl, rfl⟩)))

theorem State.readOwner_keeps (c : Command) (clear : Bool) (left : List CounterOwner) (result : List Byte) : s.Keeps
    { ports := true, classifier := true, streams := true, pool := true, lanes := true, trunk := true, mu := true, notices := true }
    (s.readOwner c clear left result) := by
  cases left with
  | nil => exact (s.finish_keeps _ _ _).mono rfl
  | cons o rest =>
    rw [State.readOwner_cons]
    have executing (t : State) (x : Option Execution) : t.Keeps { mu := true } { t with mu := { t.mu with executing := x } } :=
      .of_eq rfl (.inl rfl) (.inr (.inr ⟨rfl, rfl⟩))
    cases clear with
    | false => exact (executing s _).mono rfl
    | true => exact (s.clearOwner_keeps o).andThen (executing _ _)

end Events

end Sys2Proof.Machine

/-! The commands of the Management Unit, and every command by its footprint. -/

namespace Sys2Proof.Machine

/-! ## The management commands -/

section Commands
variable (s : State) (c : Command)

theorem State.runCommand_keeps {α : Type} {code : Byte} {parse : List Byte → Option α} {need : α → SessionNeed}
    {effect : State → Command → α → State} {fp : Footprint} (taken : ∀ (s : State) c a, s.Keeps fp (effect s c a))
    (hmu : fp.mu = true) : s.Keeps fp (s.runCommand code parse need effect) := by
  have within : ({ mu := true } : Footprint).within fp = true := by simp [Footprint.within, hmu]
  have begun (rest : List Command) : s.Keeps { mu := true } { s with mu := { s.mu with queue := rest } } :=
    .of_eq rfl (.inl rfl) (.inr (.inr ⟨rfl, rfl⟩))
  refine State.runCommand_cases s code parse need effect (s.Keeps fp) (.refl _ s) (fun c rest st _ _ => ?_)
    fun c rest a _ _ _ _ _ => ((begun rest).mono within).trans (taken _ c a)
  exact ((begun rest).trans (State.finish_keeps _ _ _ _)).mono within

theorem State.portSet_keeps (a : PortSetParams) : s.Keeps { ports := true, mu := true } (s.portSet c a) := by
  have answered (st : Status) (bytes : List Byte) : s.Keeps { ports := true, mu := true } (s.finish c st bytes) :=
    (s.finish_keeps c st bytes).mono rfl
  have changed (p : PortId) (x : Port) (st : Status) (bytes : List Byte) :
      s.Keeps { ports := true, mu := true } ((s.setPort p x).finish c st bytes) :=
    (s.setPort_keeps p x).andThen (State.finish_keeps _ _ _ _)
  unfold State.portSet
  split
  · exact answered _ _
  · dsimp only
    split
    · split
      · exact changed _ _ _ _
      · exact changed _ _ _ _
      · exact answered _ _
      · exact answered _ _
    · split
      · exact answered _ _
      · exact changed _ _ _ _
      · exact changed _ _ _ _
      · exact changed _ _ _ _

theorem State.streams_finish_keeps (t : StreamTable) (st : Status) (bytes : List Byte) :
    s.Keeps { streams := true, mu := true } (({ s with streams := t } : State).finish c st bytes) :=
  .of_eq rfl (.inl rfl) (.inr (.inr ⟨rfl, rfl⟩))

theorem State.streamWrite_keeps (a : StreamWriteParams) : s.Keeps { streams := true, mu := true } (s.streamWrite c a) := by
  unfold State.streamWrite
  split
  · exact (s.finish_keeps _ _ _).mono rfl
  · split
    · exact s.streams_finish_keeps _ _ _ _
    · split
      · exact s.streams_finish_keeps _ _ _ _
      · exact (s.finish_keeps _ _ _).mono rfl

theorem State.streamDelete_keeps (k : RawKey) : s.Keeps { streams := true, mu := true } (s.streamDelete c k) := by
  unfold State.streamDelete
  split
  · exact (s.finish_keeps _ _ _).mono rfl
  · split
    · exact s.streams_finish_keeps _ _ _ _
    · exact (s.finish_keeps _ _ _).mono rfl

theorem State.streamRead_keeps (a : StreamReadParams) : s.Keeps { streams := true, mu := true } (s.streamRead c a) := by
  unfold State.streamRead
  split
  · exact (s.finish_keeps _ _ _).mono rfl
  · exact (s.finish_keeps _ _ _).mono rfl
  · split
    · exact (s.finish_keeps _ _ _).mono rfl
    · dsimp only
      split
      · exact s.streams_finish_keeps _ _ _ _
      · exact (s.finish_keeps _ _ _).mono rfl

theorem State.rules_finish_keeps (r : RuleSet) (st : Status) (bytes : List Byte) :
    s.Keeps { rules := true, mu := true } (({ s with rules := r } : State).finish c st bytes) :=
  .of_eq rfl (.inl rfl) (.inr (.inr ⟨rfl, rfl⟩))

theorem State.ruleStage_keeps (a : RuleStageParams) : s.Keeps { rules := true, mu := true } (s.ruleStage c a) := by
  unfold State.ruleStage
  split
  · exact s.rules_finish_keeps _ _ _ _
  · exact (s.finish_keeps _ _ _).mono rfl

theorem State.ruleRead_keeps (a : RuleReadParams) : s.Keeps { mu := true } (s.ruleRead c a) := by
  unfold State.ruleRead
  split <;> exact s.finish_keeps _ _ _

theorem State.map_finish_keeps (m : ClassMap) (st : Status) (bytes : List Byte) :
    s.Keeps { map := true, mu := true } (({ s with map := m } : State).finish c st bytes) :=
  .of_eq rfl (.inl rfl) (.inr (.inr ⟨rfl, rfl⟩))

theorem State.classWrite_keeps (a : ClassWriteParams) : s.Keeps { map := true, mu := true } (s.classWrite c a) := by
  unfold State.classWrite
  split
  · exact s.map_finish_keeps _ _ _ _
  · exact (s.finish_keeps _ _ _).mono rfl

theorem State.spreadWrite_keeps (a : SpreadWriteParams) : s.Keeps { map := true, mu := true } (s.spreadWrite c a) := by
  unfold State.spreadWrite
  split
  · split
    · exact s.map_finish_keeps _ _ _ _
    · exact (s.finish_keeps _ _ _).mono rfl
  · exact (s.finish_keeps _ _ _).mono rfl

theorem State.setThresholds_keeps (a : PoolSetParams) : s.Keeps { pool := true, notices := true } (s.setThresholds a) := by
  unfold State.setThresholds
  dsimp only
  split
  · split <;> exact .of_eq rfl (.inl rfl) (.inl rfl)
  · split <;> exact .of_eq rfl (.inl rfl) (.inl rfl)

theorem State.poolSet_keeps (a : PoolSetParams) :
    s.Keeps { pool := true, notices := true, trunk := true, mu := true } (s.poolSet c a) := by
  unfold State.poolSet
  split
  · exact ((s.setThresholds_keeps a).andThen (State.finish_keeps _ _ _ _) : s.Keeps
      { pool := true, notices := true, mu := true } _).andThen (State.arbitrate_keeps _)
  · exact (s.finish_keeps _ _ _).mono rfl

theorem State.onCommandLane_keeps {fp : Footprint} (lane : Byte) (f : LaneId → State) (hmu : fp.mu = true)
    (hf : ∀ l, s.Keeps fp (f l)) : s.Keeps fp (s.onCommandLane c lane f) := by
  unfold State.onCommandLane
  split
  · exact (s.finish_keeps _ _ _).mono (by simp [Footprint.within, hmu])
  · exact hf _

theorem State.lane_finish_keeps (l : LaneId) (x : Lane) (st : Status) (bytes : List Byte) :
    s.Keeps { lanes := true, mu := true } ((s.setLane l x).finish c st bytes) :=
  (s.setLane_keeps l x).andThen (State.finish_keeps _ _ _ _)

theorem State.flushLane_keeps (l : LaneId) : s.Keeps { lanes := true, mu := true } (s.flushLane c l) := by
  unfold State.flushLane
  dsimp only
  split
  · exact s.lane_finish_keeps _ _ _ _ _
  · split
    · exact s.lane_finish_keeps _ _ _ _ _
    · exact ((s.setLane_keeps l _).trans (State.setLane_keeps _ l _)).andThen (State.finish_keeps _ _ _ _)

theorem State.laneFlush_keeps (lane : Byte) : s.Keeps { lanes := true, trunk := true, mu := true } (s.laneFlush c lane) := by
  refine s.onCommandLane_keeps c lane _ rfl fun l => ?_
  have flushed := (s.flushLane_keeps c l).andThen (State.arbitrate_keeps _)
  split
  · exact (s.finish_keeps _ _ _).mono rfl
  · exact flushed
  · exact flushed
  · exact flushed

theorem State.laneConfig_keeps (a : LaneConfigParams) : s.Keeps { lanes := true, mu := true } (s.laneConfig c a) := by
  refine s.onCommandLane_keeps c a.lane _ rfl fun l => ?_
  split
  · exact (s.finish_keeps _ _ _).mono rfl
  · exact (s.finish_keeps _ _ _).mono rfl
  · exact (s.finish_keeps _ _ _).mono rfl
  · split
    · exact s.lane_finish_keeps _ _ _ _ _
    · exact (s.finish_keeps _ _ _).mono rfl

theorem State.laneStart_keeps (lane : Byte) : s.Keeps { lanes := true, mu := true } (s.laneStart c lane) := by
  refine s.onCommandLane_keeps c lane _ rfl fun l => ?_
  split
  · exact s.lane_finish_keeps _ _ _ _ _
  · exact (s.finish_keeps _ _ _).mono rfl
  · exact (s.finish_keeps _ _ _).mono rfl
  · exact (s.finish_keeps _ _ _).mono rfl

theorem State.beginDrain_keeps (l : LaneId) :
    s.Keeps { lanes := true, pool := true, trunk := true, notices := true } (s.beginDrain l) :=
  (s.setLane_keeps l _).andThen (State.drainCheck_keeps _ l)

theorem State.laneStop_keeps (lane : Byte) :
    s.Keeps { lanes := true, pool := true, trunk := true, notices := true, mu := true } (s.laneStop c lane) := by
  refine s.onCommandLane_keeps c lane _ rfl fun l => ?_
  dsimp only
  split
  · exact (s.finish_keeps _ _ _).mono rfl
  · exact (s.finish_keeps _ _ _).mono rfl
  · exact ((s.beginDrain_keeps l).andThen (State.finish_keeps _ _ _ _) : s.Keeps
      { lanes := true, pool := true, trunk := true, notices := true, mu := true } _).andThen (State.arbitrate_keeps _)
  · split
    · exact (s.finish_keeps _ _ _).mono rfl
    · exact (s.lane_finish_keeps _ _ _ _ _).mono rfl

theorem State.resetLane_keeps (l : LaneId) : s.Keeps { lanes := true, pool := true, trunk := true } (s.resetLane l) := by
  unfold State.resetLane
  split
  · exact s.cutFrame_keeps.andThen (State.disableLane_keeps _ l)
  · exact s.disableLane_keeps l

theorem State.laneReset_keeps (lane : Byte) :
    s.Keeps { lanes := true, pool := true, trunk := true, mu := true } (s.laneReset c lane) := by
  refine s.onCommandLane_keeps c lane _ rfl fun l => ?_
  have taken (st : Status) (bytes : List Byte) :=
    (s.resetLane_keeps l).andThen (State.finish_keeps _ c st bytes)
  split
  · exact (s.finish_keeps _ _ _).mono rfl
  · exact taken _ _
  · exact taken _ _
  · exact taken _ _

theorem State.openSession_keeps (a : Unit) :
    s.Keeps { notices := true, trunk := true, mu := true, epochs := true } (s.openSession c a) := by
  unfold State.openSession
  split
  · have taken (u : NoticeUnit) : s.Keeps { notices := true, mu := true, epochs := true }
        { s with mu := { s.mu with epoch := some c.epoch, lastEpoch := c.epoch }, notices := u } := .of_eq rfl (.inl rfl) (.inr (.inl rfl))
    exact ((taken _).andThen (State.finish_keeps _ _ _ _) : s.Keeps
      { notices := true, mu := true, epochs := true } _).andThen (State.arbitrate_keeps _)
  · exact (s.finish_keeps _ _ _).mono rfl

theorem State.closeSession_keeps (a : Unit) : s.Keeps { mu := true, epochs := true } (s.closeSession c a) := .of_eq rfl (.inl rfl) (.inr (.inl rfl))

theorem State.readStatus_keeps (a : ReadStatusParams) : s.Keeps { mu := true } (s.readStatus c a) := by
  unfold State.readStatus
  split <;> exact s.finish_keeps _ _ _

theorem State.noticeRearm_keeps (a : NoticeRearmParams) :
    s.Keeps { notices := true, trunk := true, mu := true } (s.noticeRearm c a) := by
  unfold State.noticeRearm
  split
  · exact (s.finish_keeps _ _ _).mono rfl
  · have rearmed (u : NoticeUnit) : s.Keeps { notices := true } { s with notices := u } := .of_eq rfl (.inl rfl) (.inl rfl)
    exact ((rearmed _).andThen (State.finish_keeps _ _ _ _) : s.Keeps { notices := true, mu := true } _).andThen
      (State.arbitrate_keeps _)

theorem State.datapathReset_keeps (a : Unit) :
    s.Keeps { ports := true, classifier := true, mu := true } (s.datapathReset c a) := by
  unfold State.datapathReset
  dsimp only
  split <;> exact .of_eq rfl (.inl rfl) (.inr (.inr ⟨rfl, rfl⟩))

/-- The blocks with counters. -/
def counterBlocks : Footprint :=
  { ports := true, classifier := true, streams := true, pool := true, lanes := true, trunk := true, mu := true, notices := true }

/-- READ_COUNTERS has one owner and, in the others' groups, all of them: its footprint is every block with counters. -/
theorem State.stepReadCounters_keeps : s.Keeps counterBlocks s.stepReadCounters := by
  have begun (s : State) (c : Command) (a : ReadCountersParams) : s.Keeps counterBlocks (s.readCounters c a) := by
    unfold State.readCounters
    split
    · exact s.readOwner_keeps _ _ _ _
    · exact (s.finish_keeps _ _ _).mono rfl
  unfold State.stepReadCounters
  split
  · exact s.readOwner_keeps _ _ _ _
  · exact s.runCommand_keeps begun rfl

theorem State.refuseUnknown_keeps : s.Keeps { mu := true } s.refuseUnknown := by
  unfold State.refuseUnknown
  split
  · rename_i c s' hb
    obtain ⟨-, -, rest, -, rfl⟩ := State.beginCommand_eq _ _ _ _ hb
    exact .of_eq rfl (.inl rfl) (.inr (.inr ⟨rfl, rfl⟩))
  · exact .refl _ s

theorem State.timerExpiry_keeps (timer : Assembler → Timer) (reason : CloseReason) (l : LaneId) : s.Keeps { lanes := true }
    (if (timer (s.lane l).asm).due s.deviceTime then s.setLane l ((s.lane l).close s.deviceTime reason) else s) := by
  split
  · exact s.setLane_keeps l _
  · exact .refl _ s

end Commands

/-! ## The commands of the table, each by its effect -/

section Arms
variable (s : State)

theorem exec_frameTake : exec .frameTake s = running State.takeFrame s := rfl
theorem exec_lookup : exec .lookup s = running State.lookupStage s := rfl
theorem exec_ruleSearch : exec .ruleSearch s = running State.searchStage s := rfl
theorem exec_learnInsert : exec .learnInsert s = running State.learnStage s := rfl
theorem exec_laneResolution : exec .laneResolution s = running State.resolveStage s := rfl
theorem exec_placement : exec .placement s = running State.placeStage s := rfl
theorem exec_streamUpdate : exec .streamUpdate s = running State.updateStage s := rfl
theorem exec_fieldStartDelimiter (p : Nat) : exec (.fieldStartDelimiter p) s =
    onPort p (fun p s => s.setPort p (s.port p).startFrame) s := rfl
theorem exec_fieldByteArrival (p : Nat) (b : Byte) : exec (.fieldByteArrival p b) s =
    onPort p (fun p s => s.fieldByte p b) s := rfl
theorem exec_fieldEndDelimiter (p : Nat) : exec (.fieldEndDelimiter p) s = onPort p (fun p s => s.fieldEnd p) s := rfl
theorem exec_portSet : exec .portSet s =
    running (fun s => s.runCommand Code.portSet (readWhole readPortSet) (fun _ => .matching) State.portSet) s := rfl
theorem exec_handoff (l : Nat) : exec (.handoff l) s =
    onLane l (fun l s => if (s.lane l).offered.isSome then (s.setLane l ((s.lane l).settle l)).arbitrate else s) s := rfl
theorem exec_idleTimerExpiry (l : Nat) : exec (.idleTimerExpiry l) s =
    onLane l (fun l s => if (s.lane l).asm.idle.due s.deviceTime then s.setLane l ((s.lane l).close s.deviceTime .idle) else s) s := rfl
theorem exec_ageTimerExpiry (l : Nat) : exec (.ageTimerExpiry l) s =
    onLane l (fun l s => if (s.lane l).asm.age.due s.deviceTime then s.setLane l ((s.lane l).close s.deviceTime .age) else s) s := rfl
theorem exec_laneUpdate : exec .laneUpdate s = running State.takeUpdate s := rfl
theorem exec_sendStart : exec .sendStart s = running State.takeSendStart s := rfl
theorem exec_retransmitTimerExpiry (l : Nat) : exec (.retransmitTimerExpiry l) s =
    onLane l (fun l s => s.retransmitExpiry l) s := rfl
theorem exec_laneFlush : exec .laneFlush s =
    running (fun s => s.runCommand Code.laneFlush (readWhole read8) (fun _ => .matching) State.laneFlush) s := rfl
theorem exec_laneConfig : exec .laneConfig s =
    running (fun s => s.runCommand Code.laneConfig (readWhole readLaneConfig) (fun _ => .matching) State.laneConfig) s := rfl
theorem exec_laneStart : exec .laneStart s =
    running (fun s => s.runCommand Code.laneStart (readWhole read8) (fun _ => .matching) State.laneStart) s := rfl
theorem exec_laneStop : exec .laneStop s =
    running (fun s => s.runCommand Code.laneStop (readWhole read8) (fun _ => .matching) State.laneStop) s := rfl
theorem exec_laneReset : exec .laneReset s =
    running (fun s => s.runCommand Code.laneReset (readWhole read8) (fun _ => .matching) State.laneReset) s := rfl
theorem exec_commandArrival : exec .commandArrival s = running State.takeArrival s := rfl
theorem exec_commandEnd : exec .commandEnd s = running State.commandEnds s := rfl
theorem exec_unknownCommandCode : exec .unknownCommandCode s = running State.refuseUnknown s := rfl
theorem exec_openSession : exec .openSession s =
    running (fun s => s.runCommand Code.openSession (readWhole readNothing) (fun _ => .exempt) State.openSession) s := rfl
theorem exec_closeSession : exec .closeSession s =
    running (fun s => s.runCommand Code.closeSession (readWhole readNothing) (fun _ => .matching) State.closeSession) s := rfl
theorem exec_readStatus : exec .readStatus s =
    running (fun s => s.runCommand Code.readStatus (readWhole readReadStatus) (fun _ => .readOnly) State.readStatus) s := rfl
theorem exec_noticeRearm : exec .noticeRearm s =
    running (fun s => s.runCommand Code.noticeRearm (readWhole readNoticeRearm) (fun _ => .matching) State.noticeRearm) s := rfl
theorem exec_readCounters : exec .readCounters s = running State.stepReadCounters s := rfl
theorem exec_datapathReset : exec .datapathReset s =
    running (fun s => s.runCommand Code.datapathReset (readWhole readNothing) (fun _ => .matching) State.datapathReset) s := rfl
theorem exec_resetPhase3 : exec .resetPhase3 s = running State.phase3 s := rfl
theorem exec_resetPhase4 : exec .resetPhase4 s = running State.phase4 s := rfl
theorem exec_streamWrite : exec .streamWrite s =
    running (fun s => s.runCommand Code.streamWrite (readWhole readStreamWrite) (fun _ => .matching) State.streamWrite) s := rfl
theorem exec_streamDelete : exec .streamDelete s =
    running (fun s => s.runCommand Code.streamDelete (readWhole readKey) (fun _ => .matching) State.streamDelete) s := rfl
theorem exec_streamRead : exec .streamRead s =
    running (fun s => s.runCommand Code.streamRead parseStreamRead (fun a => readNeed a.clear) State.streamRead) s := rfl
theorem exec_ruleStage : exec .ruleStage s =
    running (fun s => s.runCommand Code.ruleStage (readWhole readRuleStage) (fun _ => .matching) State.ruleStage) s := rfl
theorem exec_ruleApply : exec .ruleApply s =
    running (fun s => s.runCommand Code.ruleApply (readWhole readNothing) (fun _ => .matching) State.ruleApply) s := rfl
theorem exec_ruleRead : exec .ruleRead s =
    running (fun s => s.runCommand Code.ruleRead (readWhole readRuleRead) (fun _ => .readOnly) State.ruleRead) s := rfl
theorem exec_classWrite : exec .classWrite s =
    running (fun s => s.runCommand Code.classWrite (readWhole readClassWrite) (fun _ => .matching) State.classWrite) s := rfl
theorem exec_spreadWrite : exec .spreadWrite s =
    running (fun s => s.runCommand Code.spreadWrite (readWhole readSpreadWrite) (fun _ => .matching) State.spreadWrite) s := rfl
theorem exec_mapRead : exec .mapRead s =
    running (fun s => s.runCommand Code.mapRead (readWhole readNothing) (fun _ => .readOnly) State.mapRead) s := rfl
theorem exec_poolSet : exec .poolSet s =
    running (fun s => s.runCommand Code.poolSet (readWhole readPoolSet) (fun _ => .matching) State.poolSet) s := rfl
theorem exec_linkUp : exec .linkUp s = running State.gainLock s := rfl
theorem exec_linkDown : exec .linkDown s = running State.loseLock s := rfl
theorem exec_trunkStartDelimiter : exec .trunkStartDelimiter s =
    running (fun s => { s with trunk := s.trunk.startInbound }) s := rfl
theorem exec_trunkByteArrival (b : Byte) : exec (.trunkByteArrival b) s =
    running (fun s => { s with trunk := s.trunk.inboundByte b }) s := rfl
theorem exec_trunkAbortDelimiter : exec .trunkAbortDelimiter s =
    running (fun s => { s with trunk := { s.trunk with inbound := none } }) s := rfl
theorem exec_trunkEndDelimiter : exec .trunkEndDelimiter s = running State.inboundEnd s := rfl
theorem exec_noticeBatchRequest : exec .noticeBatchRequest s = running State.takeBatchRequest s := rfl
theorem exec_outboundFrameEnd : exec .outboundFrameEnd s = running State.frameOutEnds s := rfl
theorem exec_bundleFrameEnd : exec .bundleFrameEnd s = running State.bundleFrameEnds s := rfl
theorem exec_cutFrameEnd : exec .cutFrameEnd s = running State.cutFrameEnds s := rfl

end Arms

/-! ## The commands by their footprints -/

/-- The commands of the pins RESET_N and FLD_IN, which reach more than the blocks. -/
def ofPins : Instr → Bool
  | .powerOnReset | .resetRelease _ _ | .lineSignalGained _ | .lineSignalLost _ => true
  | _ => false

/-- The blocks that a command may change. -/
def footprintOf : Instr → Footprint
  | .powerOnReset | .resetRelease _ _ | .lineSignalGained _ | .lineSignalLost _ => {}
  | .fieldStartDelimiter _ => { ports := true }
  | .fieldByteArrival _ _ | .fieldEndDelimiter _ => { ports := true, notices := true, trunk := true, mu := true }
  | .frameTake => { ports := true, classifier := true }
  | .lookup => { classifier := true }
  | .ruleSearch => { ports := true, notices := true, classifier := true, mu := true, trunk := true }
  | .learnInsert => { streams := true, classifier := true, notices := true, mu := true, trunk := true }
  | .laneResolution => { ports := true, classifier := true, mu := true }
  | .placement =>
    { lanes := true, pool := true, notices := true, ports := true, classifier := true, mu := true, trunk := true }
  | .streamUpdate => { streams := true, ports := true, classifier := true, mu := true }
  | .idleTimerExpiry _ | .ageTimerExpiry _ => { lanes := true }
  | .handoff _ | .sendStart | .laneFlush | .resetPhase3 => { lanes := true, trunk := true, mu := true }
  | .portSet => { ports := true, mu := true }
  | .streamWrite | .streamDelete | .streamRead => { streams := true, mu := true }
  | .ruleStage | .ruleApply => { rules := true, mu := true }
  | .ruleRead | .mapRead | .readStatus | .unknownCommandCode => { mu := true }
  | .classWrite | .spreadWrite => { map := true, mu := true }
  | .poolSet => { pool := true, notices := true, trunk := true, mu := true }
  | .laneConfig | .laneStart => { lanes := true, mu := true }
  | .laneStop | .laneUpdate => { lanes := true, pool := true, trunk := true, notices := true, mu := true }
  | .laneReset => { lanes := true, pool := true, trunk := true, mu := true }
  | .retransmitTimerExpiry _ => { lanes := true, notices := true, trunk := true, mu := true }
  | .linkUp => { link := true, lanes := true, trunk := true, mu := true }
  | .linkDown => { link := true, lanes := true, pool := true, trunk := true, mu := true, epochs := true }
  | .trunkStartDelimiter | .trunkAbortDelimiter | .trunkByteArrival _ => { trunk := true }
  | .trunkEndDelimiter | .noticeBatchRequest | .noticeRearm => { trunk := true, notices := true, mu := true }
  | .commandArrival | .commandEnd => { trunk := true, mu := true }
  | .outboundFrameEnd | .bundleFrameEnd | .cutFrameEnd => { trunk := true, pool := true, mu := true }
  | .openSession => { notices := true, trunk := true, mu := true, epochs := true }
  | .closeSession => { mu := true, epochs := true }
  | .datapathReset => { ports := true, classifier := true, mu := true }
  | .resetPhase4 => { lanes := true, pool := true, trunk := true, streams := true, ports := true, mu := true }
  | .readCounters => counterBlocks

section Events
variable {s t : State}

/-- Every command of the table changes the blocks of its footprint alone. -/
theorem exec_keepsFootprint {c : Instr} (h : exec c s = .next t) (hc : ofPins c = false) : s.Keeps (footprintOf c) t := by
  cases c with
  | powerOnReset | resetRelease | lineSignalGained | lineSignalLost => cases hc
  | fieldStartDelimiter p =>
    rw [exec_fieldStartDelimiter] at h
    exact onPort_keeps h (.refl _ s) (fun q => s.setPort_keeps q _)
  | fieldByteArrival p b =>
    rw [exec_fieldByteArrival] at h
    exact onPort_keeps h (.refl _ s) (fun q => s.fieldByte_keeps q b)
  | fieldEndDelimiter p =>
    rw [exec_fieldEndDelimiter] at h
    exact onPort_keeps h (.refl _ s) s.fieldEnd_keeps
  | frameTake =>
    rw [exec_frameTake] at h
    exact running_keeps h (.refl _ s) s.takeFrame_keeps
  | lookup =>
    rw [exec_lookup] at h
    exact running_keeps h (.refl _ s) s.lookupStage_keeps
  | ruleSearch =>
    rw [exec_ruleSearch] at h
    exact running_keeps h (.refl _ s) s.searchStage_keeps
  | learnInsert =>
    rw [exec_learnInsert] at h
    exact running_keeps h (.refl _ s) s.learnStage_keeps
  | laneResolution =>
    rw [exec_laneResolution] at h
    exact running_keeps h (.refl _ s) s.resolveStage_keeps
  | placement =>
    rw [exec_placement] at h
    exact running_keeps h (.refl _ s) s.placeStage_keeps
  | handoff l =>
    rw [exec_handoff] at h
    exact onLane_keeps h (.refl _ s) s.takeHandoff_keeps
  | streamUpdate =>
    rw [exec_streamUpdate] at h
    exact running_keeps h (.refl _ s) s.updateStage_keeps
  | idleTimerExpiry l =>
    rw [exec_idleTimerExpiry] at h
    exact onLane_keeps h (.refl _ s) (s.timerExpiry_keeps (fun asm => asm.idle) .idle)
  | ageTimerExpiry l =>
    rw [exec_ageTimerExpiry] at h
    exact onLane_keeps h (.refl _ s) (s.timerExpiry_keeps (fun asm => asm.age) .age)
  | portSet =>
    rw [exec_portSet] at h
    exact running_keeps h (.refl _ s) (s.runCommand_keeps State.portSet_keeps rfl)
  | streamWrite =>
    rw [exec_streamWrite] at h
    exact running_keeps h (.refl _ s) (s.runCommand_keeps State.streamWrite_keeps rfl)
  | streamDelete =>
    rw [exec_streamDelete] at h
    exact running_keeps h (.refl _ s) (s.runCommand_keeps State.streamDelete_keeps rfl)
  | streamRead =>
    rw [exec_streamRead] at h
    exact running_keeps h (.refl _ s) (s.runCommand_keeps State.streamRead_keeps rfl)
  | ruleStage =>
    rw [exec_ruleStage] at h
    exact running_keeps h (.refl _ s) (s.runCommand_keeps State.ruleStage_keeps rfl)
  | ruleApply =>
    rw [exec_ruleApply] at h
    exact running_keeps h (.refl _ s) (s.runCommand_keeps (fun s c _ => s.rules_finish_keeps c _ _ _) rfl)
  | ruleRead =>
    rw [exec_ruleRead] at h
    exact running_keeps h (.refl _ s) (s.runCommand_keeps State.ruleRead_keeps rfl)
  | classWrite =>
    rw [exec_classWrite] at h
    exact running_keeps h (.refl _ s) (s.runCommand_keeps State.classWrite_keeps rfl)
  | spreadWrite =>
    rw [exec_spreadWrite] at h
    exact running_keeps h (.refl _ s) (s.runCommand_keeps State.spreadWrite_keeps rfl)
  | mapRead =>
    rw [exec_mapRead] at h
    exact running_keeps h (.refl _ s) (s.runCommand_keeps (fun s c _ => s.finish_keeps c _ _) rfl)
  | poolSet =>
    rw [exec_poolSet] at h
    exact running_keeps h (.refl _ s) (s.runCommand_keeps State.poolSet_keeps rfl)
  | laneFlush =>
    rw [exec_laneFlush] at h
    exact running_keeps h (.refl _ s) (s.runCommand_keeps State.laneFlush_keeps rfl)
  | laneConfig =>
    rw [exec_laneConfig] at h
    exact running_keeps h (.refl _ s) (s.runCommand_keeps State.laneConfig_keeps rfl)
  | laneStart =>
    rw [exec_laneStart] at h
    exact running_keeps h (.refl _ s) (s.runCommand_keeps State.laneStart_keeps rfl)
  | laneStop =>
    rw [exec_laneStop] at h
    exact running_keeps h (.refl _ s) (s.runCommand_keeps State.laneStop_keeps rfl)
  | laneReset =>
    rw [exec_laneReset] at h
    exact running_keeps h (.refl _ s) (s.runCommand_keeps State.laneReset_keeps rfl)
  | laneUpdate =>
    rw [exec_laneUpdate] at h
    exact running_keeps h (.refl _ s) s.takeUpdate_keeps
  | sendStart =>
    rw [exec_sendStart] at h
    exact running_keeps h (.refl _ s) s.takeSendStart_keeps
  | retransmitTimerExpiry l =>
    rw [exec_retransmitTimerExpiry] at h
    exact onLane_keeps h (.refl _ s) s.retransmitExpiry_keeps
  | linkUp =>
    rw [exec_linkUp] at h
    exact running_keeps h (.refl _ s) s.gainLock_keeps
  | linkDown =>
    rw [exec_linkDown] at h
    exact running_keeps h (.refl _ s) s.loseLock_keeps
  | trunkStartDelimiter =>
    rw [exec_trunkStartDelimiter] at h
    exact running_keeps h (.refl _ s) (.of_eq rfl (.inr (.inr s.trunk.startInbound_linkUp)) (.inl rfl))
  | trunkAbortDelimiter =>
    rw [exec_trunkAbortDelimiter] at h
    exact running_keeps h (.refl _ s) (.of_eq rfl (.inr (.inr rfl)) (.inl rfl))
  | trunkEndDelimiter =>
    rw [exec_trunkEndDelimiter] at h
    exact running_keeps h (.refl _ s) s.inboundEnd_keeps
  | commandArrival =>
    rw [exec_commandArrival] at h
    exact running_keeps h (.refl _ s) s.takeArrival_keeps
  | commandEnd =>
    rw [exec_commandEnd] at h
    exact running_keeps h (.refl _ s) s.commandEnds_keeps
  | noticeBatchRequest =>
    rw [exec_noticeBatchRequest] at h
    exact running_keeps h (.refl _ s) s.takeBatchRequest_keeps
  | outboundFrameEnd =>
    rw [exec_outboundFrameEnd] at h
    exact running_keeps h (.refl _ s) s.frameOutEnds_keeps
  | bundleFrameEnd =>
    rw [exec_bundleFrameEnd] at h
    exact running_keeps h (.refl _ s) s.bundleFrameEnds_keeps
  | cutFrameEnd =>
    rw [exec_cutFrameEnd] at h
    exact running_keeps h (.refl _ s) s.cutFrameEnds_keeps
  | openSession =>
    rw [exec_openSession] at h
    exact running_keeps h (.refl _ s) (s.runCommand_keeps State.openSession_keeps rfl)
  | closeSession =>
    rw [exec_closeSession] at h
    exact running_keeps h (.refl _ s) (s.runCommand_keeps State.closeSession_keeps rfl)
  | readStatus =>
    rw [exec_readStatus] at h
    exact running_keeps h (.refl _ s) (s.runCommand_keeps State.readStatus_keeps rfl)
  | datapathReset =>
    rw [exec_datapathReset] at h
    exact running_keeps h (.refl _ s) (s.runCommand_keeps State.datapathReset_keeps rfl)
  | resetPhase3 =>
    rw [exec_resetPhase3] at h
    exact running_keeps h (.refl _ s) s.phase3_keeps
  | resetPhase4 =>
    rw [exec_resetPhase4] at h
    exact running_keeps h (.refl _ s) s.phase4_keeps
  | noticeRearm =>
    rw [exec_noticeRearm] at h
    exact running_keeps h (.refl _ s) (s.runCommand_keeps State.noticeRearm_keeps rfl)
  | readCounters =>
    rw [exec_readCounters] at h
    exact running_keeps h (.refl _ s) s.stepReadCounters_keeps
  | trunkByteArrival b =>
    rw [exec_trunkByteArrival] at h
    exact running_keeps h (.refl _ s) (.of_eq rfl (.inr (.inr (s.trunk.inboundByte_linkUp b))) (.inl rfl))
  | unknownCommandCode =>
    rw [exec_unknownCommandCode] at h
    exact running_keeps h (.refl _ s) s.refuseUnknown_keeps

end Events

end Sys2Proof.Machine

/-! Proofs of O1, O3, O4, O6 and O50: what every event leaves unchanged. -/

namespace Sys2Proof.Machine

/-- A well-formed command but those of the pins takes effect while RESET_N is high, and changes nothing while it is low. -/
theorem exec_of_wellFormed {c : Instr} (s : State) (hw : c.wellFormed = true) (hc : ofPins c = false) :
    ∃ t, exec c s = .next (if s.resetN then t else s) := by
  have port {p : Nat} {f : PortId → State → State} (hp : decide (p < 8) = true) :
      ∃ t, onPort p f s = .next (if s.resetN then t else s) := ⟨_, dif_pos (of_decide_eq_true hp)⟩
  have lane {l : Nat} {f : LaneId → State → State} (hl : decide (l < 16) = true) :
      ∃ t, onLane l f s = .next (if s.resetN then t else s) := ⟨_, dif_pos (of_decide_eq_true hl)⟩
  cases c with
  | powerOnReset | resetRelease | lineSignalGained | lineSignalLost => cases hc
  | fieldStartDelimiter | fieldByteArrival | fieldEndDelimiter =>
    simp only [exec_fieldStartDelimiter, exec_fieldByteArrival, exec_fieldEndDelimiter]
    exact port hw
  | handoff | idleTimerExpiry | ageTimerExpiry | retransmitTimerExpiry =>
    simp only [exec_handoff, exec_idleTimerExpiry, exec_ageTimerExpiry, exec_retransmitTimerExpiry]
    exact lane hw
  | _ => exact ⟨_, rfl⟩

theorem exec_lineSignalGained (s : State) (p : PortId) : exec (.lineSignalGained p) s = .next (s.lineChanges p true) :=
  dif_pos p.isLt

theorem exec_lineSignalLost (s : State) (p : PortId) : exec (.lineSignalLost p) s = .next (s.lineChanges p false) :=
  dif_pos p.isLt

end Sys2Proof.Machine
namespace Sys2Proof.Machine

/-- Settles O1: a step of a state whose queue is not empty is its front command. -/
theorem stepRunsTheFrontCommand : Obligations.StepRunsTheFrontCommand := fun _ _ _ => rfl

/-- Settles O3: no footprint has the queue of commands, and the commands of the pins name it as they leave it. -/
theorem execKeepsTheQueue : Obligations.ExecKeepsTheQueue := by
  intro c s t h
  cases hc : ofPins c with
  | false => exact (exec_keepsFootprint h hc).own.2
  | true =>
    cases c with
    | powerOnReset => cases h; rfl
    | resetRelease straps micros =>
      cases h
      split
      · rfl
      · split <;> rfl
    | lineSignalGained p | lineSignalLost p =>
      simp only [exec, execLineSignalGained, execLineSignalLost] at h
      split at h <;> cases h
      rfl
    | _ => cases hc

/-- Settles O4: the commands that name a port or a lane stop where it does not exist, and the others answer always. -/
theorem onlyIllFormedCommandsStop : Obligations.OnlyIllFormedCommandsStop := by
  refine ⟨fun c s hw => ?_, fun p b s hp c hc => ?_, fun l s hl c hc => ?_⟩
  · cases hc : ofPins c with
    | false =>
      obtain ⟨t, ht⟩ := exec_of_wellFormed s hw hc
      exact ⟨_, ht⟩
    | true =>
      cases c with
      | powerOnReset | resetRelease => exact ⟨_, rfl⟩
      | lineSignalGained p => exact ⟨_, exec_lineSignalGained s ⟨p, of_decide_eq_true hw⟩⟩
      | lineSignalLost p => exact ⟨_, exec_lineSignalLost s ⟨p, of_decide_eq_true hw⟩⟩
      | _ => cases hc
  · have absent : ¬p < 8 := by omega
    simp only [List.mem_cons, List.not_mem_nil, or_false] at hc
    rcases hc with rfl | rfl | rfl | rfl | rfl <;> exact dif_neg absent
  · have absent : ¬l < 16 := by omega
    simp only [List.mem_cons, List.not_mem_nil, or_false] at hc
    rcases hc with rfl | rfl | rfl | rfl <;> exact dif_neg absent

end Sys2Proof.Machine
namespace Sys2Proof.Machine

/-- Settles O6: the release by its three cases, and every other event is of a running part. -/
theorem resetLineHoldsAndReleases : Obligations.ResetLineHoldsAndReleases := by
  refine ⟨fun straps micros s => ⟨fun low enough => ?_, fun low short => ?_, fun high => ?_⟩,
    fun c s low hw hpower hrelease hgained hlost => ?_⟩
  · simp [exec, execResetRelease, low, Config.resetLowMicros, Nat.not_lt.mpr enough, State.releaseReset]
  · simp [exec, execResetRelease, low, Config.resetLowMicros, short, State.undetermined]
  · simp [exec, execResetRelease, high]
  · have hc : ofPins c = false := by
      cases c with
      | powerOnReset => exact absurd rfl hpower
      | resetRelease straps micros => exact absurd rfl (hrelease straps micros)
      | lineSignalGained p => exact absurd rfl (hgained p)
      | lineSignalLost p => exact absurd rfl (hlost p)
      | _ => rfl
    obtain ⟨t, ht⟩ := exec_of_wellFormed s hw hc
    rw [ht, low]
    rfl

end Sys2Proof.Machine
namespace Sys2Proof.Machine

section
variable (s : State) (c : Command)

theorem State.ruleStage_active (a : RuleStageParams) : (s.ruleStage c a).rules.active = s.rules.active := by
  unfold State.ruleStage
  split <;> rfl

theorem State.openSession_lastEpoch (a : Unit) : s.mu.lastEpoch.toNat ≤ (s.openSession c a).mu.lastEpoch.toNat := by
  unfold State.openSession
  split
  · rename_i newer
    have same := ((State.arbitrate_keeps ((s.takeEpoch c.epoch).finish c .ok (enc32 c.epoch ++ encFlag s.sessionOpen))).epochs rfl).2
    rw [same]
    exact Nat.le_of_lt (BitVec.lt_def.mp newer)
  · exact le_rfl

/-- The state at a loss of lock, before a command that waited for room at its end ends (R149, R182, R183). -/
def State.lockLost : State :=
  { s.clearWire with
    trunk := s.clearWire.trunk.linkDown
    lanes := s.clearWire.lanes.map Lane.linkDown
    mu := s.clearWire.mu.linkDown.cutEnded }

/-- What a loss of lock does: nothing while the link is DOWN, and else a command that waited for room may end. -/
theorem State.loseLock_cases (P : State → Prop) (keep : s.trunk.linkUp = false → P s) (lost : s.trunk.linkUp = true → P s.lockLost)
    (ended : ∀ c r, s.trunk.linkUp = true → s.lockLost.mu.readyResponse = some (c, r) → P (s.lockLost.endCommand c r)) :
    P s.loseLock := by
  unfold State.loseLock
  split
  · rename_i up
    change P (if s.trunk.responses.length < Config.responsePlaces then s.lockLost else
      match s.lockLost.mu.readyResponse with
      | some (c, r) => s.lockLost.endCommand c r
      | none => s.lockLost)
    split
    · exact lost up
    · split
      · exact ended _ _ up ‹_›
      · exact lost up
  · rename_i down
    exact keep (by simpa using down)

/-- A loss of lock closes the session and keeps the last epoch used (R183). -/
theorem State.loseLock_lastEpoch : s.loseLock.mu.lastEpoch = s.mu.lastEpoch := by
  have kept : s.lockLost.mu.lastEpoch = s.mu.lastEpoch :=
    ((Mu.cutEnded_sameEpochs _).2.trans (s.clearWire_keeps.epochs rfl).2)
  exact s.loseLock_cases (·.mu.lastEpoch = s.mu.lastEpoch) (fun _ => rfl) (fun _ => kept) fun _ _ _ _ => kept
end

/-- Settles O50: RULE_APPLY and the four that change an epoch are told apart by the footprints; of the latter
OPEN_SESSION alone changes the last one used. -/
theorem onlyTheirCommandsChangeRulesAndEpoch : Obligations.OnlyTheirCommandsChangeRulesAndEpoch := by
  intro c s t h hpower hrelease
  have same {fp : Footprint} (k : s.Keeps fp t) (hr : fp.rules = false) (he : fp.epochs = false) :
      t.rules.active = s.rules.active ∧ t.mu.lastEpoch = s.mu.lastEpoch :=
    ⟨congrArg RuleSet.active (k.rules hr), (k.epochs he).2⟩
  have done (kept : t.rules.active = s.rules.active ∧ t.mu.lastEpoch = s.mu.lastEpoch) :
      (c ≠ .ruleApply → t.rules.active = s.rules.active) ∧ (c ≠ .openSession → t.mu.lastEpoch = s.mu.lastEpoch)
        ∧ s.mu.lastEpoch.toNat ≤ t.mu.lastEpoch.toNat :=
    ⟨fun _ => kept.1, fun _ => kept.2, by rw [kept.2]⟩
  cases c with
  | powerOnReset => exact absurd rfl hpower
  | resetRelease straps micros =>
    refine done ?_
    cases h
    split
    · exact ⟨rfl, rfl⟩
    · split
      · rename_i low short
        exact absurd (hrelease _ _ rfl) (not_or.mpr ⟨low, Nat.not_le.mpr short⟩)
      · exact ⟨rfl, rfl⟩
  | lineSignalGained p | lineSignalLost p =>
    refine done ?_
    simp only [exec, execLineSignalGained, execLineSignalLost] at h
    split at h <;> cases h
    exact ⟨rfl, rfl⟩
  | ruleApply => exact ⟨absurd rfl, fun _ => ((exec_keepsFootprint h rfl).epochs rfl).2, ((exec_keepsFootprint h rfl).epochs rfl).2 ▸ le_rfl⟩
  | openSession =>
    have rules := congrArg RuleSet.active ((exec_keepsFootprint h rfl).rules rfl)
    rw [exec_openSession] at h
    refine ⟨fun _ => rules, absurd rfl, running_keeps (P := (s.mu.lastEpoch.toNat ≤ ·.mu.lastEpoch.toNat)) h le_rfl ?_⟩
    exact State.runCommand_cases s _ _ _ _ (s.mu.lastEpoch.toNat ≤ ·.mu.lastEpoch.toNat) le_rfl (fun _ _ _ _ _ => le_rfl)
      fun c rest a _ _ _ _ _ => State.openSession_lastEpoch { s with mu := { s.mu with queue := rest } } c a
  | closeSession =>
    have rules := congrArg RuleSet.active ((exec_keepsFootprint h rfl).rules rfl)
    rw [exec_closeSession] at h
    refine done ⟨rules, running_keeps (P := (·.mu.lastEpoch = s.mu.lastEpoch)) h rfl ?_⟩
    exact State.runCommand_cases s _ _ _ _ (·.mu.lastEpoch = s.mu.lastEpoch) rfl (fun _ _ _ _ _ => rfl)
      fun _ _ _ _ _ _ _ _ => rfl
  | linkDown =>
    have rules := congrArg RuleSet.active ((exec_keepsFootprint h rfl).rules rfl)
    rw [exec_linkDown] at h
    exact done ⟨rules, running_keeps (P := (·.mu.lastEpoch = s.mu.lastEpoch)) h rfl s.loseLock_lastEpoch⟩
  | ruleStage =>
    have epochs := ((exec_keepsFootprint h rfl).epochs rfl).2
    rw [exec_ruleStage] at h
    refine done ⟨running_keeps (P := (·.rules.active = s.rules.active)) h rfl ?_, epochs⟩
    exact State.runCommand_cases s _ _ _ _ (·.rules.active = s.rules.active) rfl (fun _ _ _ _ _ => rfl)
      fun c rest a _ _ _ _ _ => State.ruleStage_active { s with mu := { s.mu with queue := rest } } c a
  | _ => exact done (same (exec_keepsFootprint h rfl) rfl rfl)

end Sys2Proof.Machine

/-! What an invariant needs to be kept by every step, and the power-on values. Proofs of O2, O5 and O53. -/

namespace Sys2Proof.Machine

/-! ## Keeping an invariant -/

/-- What a step gives: power-on, a release after a full low level, the two events of a field line, a microsecond, and every
other command give it, from what the queue of commands does not touch. -/
theorem step_gives {P Q : State → Prop} (queue : ∀ s rest, P s → P { s with pending := rest })
    (powerOn : ∀ s : State, Q s.powerOn) (same : ∀ s, P s → Q s) (release : ∀ s straps, P s → Q (s.releaseReset straps))
    (line : ∀ s p signal, P s → Q (s.lineChanges p signal)) (tick : ∀ s : State, P s → Q s.tick)
    (event : ∀ c s t, P s → exec c s = .next t → ofPins c = false → Q t) {s t : State} (hd : s.determined) (hs : P s)
    (h : step s = .next t) : Q t := by
  unfold step at h
  split at h
  · rename_i c rest front
    have hr := queue s rest hs
    cases hc : ofPins c with
    | false => exact event c _ t hr h hc
    | true =>
      cases c with
      | powerOnReset => cases h; exact powerOn _
      | resetRelease straps micros =>
        cases h
        split
        · exact same _ hr
        · rename_i low
          split
          · rename_i short
            exact absurd (hd straps micros rest front) (not_or.mpr ⟨low, Nat.not_le.mpr short⟩)
          · exact release _ _ hr
      | lineSignalGained p | lineSignalLost p =>
        simp only [exec, execLineSignalGained, execLineSignalLost] at h
        split at h <;> cases h
        exact line _ _ _ hr
      | _ => cases hc
  · cases h
    exact tick s hs

/-- A step keeps what all of these keep. -/
theorem step_keeps {P : State → Prop} (queue : ∀ s rest, P s → P { s with pending := rest })
    (powerOn : ∀ s : State, P s.powerOn) (release : ∀ s straps, P s → P (s.releaseReset straps))
    (line : ∀ s p signal, P s → P (s.lineChanges p signal)) (tick : ∀ s : State, P s → P s.tick)
    (event : ∀ c s t, P s → exec c s = .next t → ofPins c = false → P t) {s t : State} (hd : s.determined) (hs : P s)
    (h : step s = .next t) : P t :=
  step_gives queue powerOn (fun _ => id) release line tick event hd hs h

/-! ## The power-on values -/

theorem State.reset_port (p : PortId) : State.reset.port p = {} := by simp [State.port, State.reset]

theorem State.reset_lane (l : LaneId) : State.reset.lane l = {} := by simp [State.lane, State.reset]

theorem State.powerOn_port (s : State) (p : PortId) : s.powerOn.port p = { signal := s.line p } := by
  simp [State.port, State.powerOn, State.line]

theorem State.powerOn_lane (s : State) (l : LaneId) : s.powerOn.lane l = {} := by simp [State.lane, State.powerOn, State.reset]

theorem Port.sound_powerOn (signal : Bool) : ({ signal } : Port).Sound where
  fill := Nat.zero_le _
  accepted _ h := by cases h
  accepting h := by cases h
  high h := absurd (show 3072 ≤ 0 from h) (by decide)
  low _ := rfl
  bad := Nat.zero_le _
  fault h := by cases h
  up h := by cases h
  down h := by cases h

theorem NoticeUnit.sound_powerOn : ({} : NoticeUnit).Sound where
  calm i _ := by simp [NoticeUnit.source]
  gathered i h := by simp [NoticeUnit.source] at h
  places := by decide
  counted _ h := by cases h

theorem Pool.sound_powerOn : ({} : Pool).Sound where
  order := by decide
  range := by decide
  released _ := by decide
  asserted h := by cases h

theorem StreamTable.slot_powerOn (n : StreamNo) : ({} : StreamTable).slot n = {} := by simp [StreamTable.slot]

theorem StreamTable.sound_powerOn : ({} : StreamTable).Sound where
  place n e h := by rw [StreamTable.slot_powerOn] at h; cases h
  unique n m e f h := by rw [StreamTable.slot_powerOn] at h; cases h

theorem Lane.sound_powerOn (l : LaneId) : ({} : Lane).Sound l where
  disabled _ := by decide
  oneBundle h := absurd rfl h
  window := by decide
  limits := by decide
  cursor := by decide
  sent := by decide
  waiting := by decide
  retained := ⟨rfl, numbered_nil _ _⟩
  readied := ⟨rfl, numbered_nil _ _⟩
  grant := by decide
  opened _ h := by cases h
  pending _ h := by cases h
  bundles _ h := by cases h
  timers h := by simp at h
  retries := by decide
  drain h := by cases h

theorem Lane.timerSound_powerOn (up : Bool) : ({} : Lane).TimerSound up := Lane.TimerSound.of_stopped rfl

theorem Lane.cells_powerOn : ({} : Lane).cells = 0 := rfl

end Sys2Proof.Machine

namespace Sys2Proof.Machine

/-- Settles O2: the timers tick one by one, and nothing else has the time. -/
theorem idleStepIsOneMicrosecond : Obligations.IdleStepIsOneMicrosecond := by
  intro s idle
  have stepped : step s = .next s.tick := by unfold step; rw [idle]
  have timer (t : Timer) (now : Word) : (t = .stopped ∧ t.tick now = .stopped)
      ∨ ∃ e reached, t = .running e reached ∧ t.tick now = .running e (reached || e == now) := by
    cases t with
    | stopped => exact .inl ⟨rfl, rfl⟩
    | running e reached => exact .inr ⟨e, reached, rfl, rfl⟩
  refine ⟨fun low => ?_, fun high => ⟨s.tick, stepped, ?_, fun l => ?_⟩⟩
  · rw [stepped, State.tick, low]; rfl
  · rw [State.tick, high]; rfl
  · refine ⟨(s.lane l).asm.idle.tick (s.deviceTime + 1), (s.lane l).asm.age.tick (s.deviceTime + 1),
      (s.lane l).ldu.timer.tick (s.deviceTime + 1), ?_, fun x hx => ?_⟩
    · simp [State.tick, high, State.lane, Lane.tick]
    · simp only [List.mem_cons, List.not_mem_nil, or_false] at hx
      rcases hx with rfl | rfl | rfl <;> exact timer _ _

end Sys2Proof.Machine

namespace Sys2Proof.Machine

theorem State.atPowerOn_of_units {s : State} (time : s.deviceTime = 0) (ports : ∀ p, ∃ signal, s.port p = { signal })
    (lanes : ∀ l, s.lane l = {}) (streams : s.streams = {}) (rules : s.rules = {}) (map : s.map = {}) (units : s.unitsAtPowerOn) :
    s.atPowerOn := by
  refine ⟨time, fun p => ?_, fun l => ?_, ?_, units⟩
  · obtain ⟨signal, hp⟩ := ports p
    rw [hp]
    exact ⟨rfl, rfl, rfl, rfl, rfl, rfl, rfl, rfl⟩
  · rw [lanes l]
    unfold Lane.atPowerOn
    decide
  · unfold State.tablesAtPowerOn
    rw [streams, rules, map]
    simp [StreamTable.slot]

theorem State.unitsAtPowerOn_reset : State.reset.unitsAtPowerOn := by
  simp [State.unitsAtPowerOn, State.reset, NoticeUnit.source]

theorem State.unitsAtPowerOn_powerOn (s : State) : s.powerOn.unitsAtPowerOn := by
  simp [State.unitsAtPowerOn, State.powerOn, State.reset, NoticeUnit.source]

/-- Settles O5: after reset and while RESET_N is low alike, every block but the indications is at its default values. -/
theorem resetGivesThePowerOnValues : Obligations.ResetGivesThePowerOnValues := by
  refine ⟨State.atPowerOn_of_units rfl (fun p => ⟨false, State.reset_port p⟩) State.reset_lane rfl rfl rfl
    State.unitsAtPowerOn_reset, rfl, rfl, fun p => by simp [State.line, State.reset],
    fun s => ⟨s.powerOn, rfl, ?_, rfl, rfl, fun p => ?_, rfl, rfl, rfl⟩⟩
  · exact State.atPowerOn_of_units rfl (fun p => ⟨_, s.powerOn_port p⟩) s.powerOn_lane rfl rfl rfl s.unitsAtPowerOn_powerOn
  · rw [s.powerOn_port]

end Sys2Proof.Machine
namespace Sys2Proof.Machine

/-- Settles O53: each block is sound at its power-on values. -/
theorem invariantsHoldAtReset : Obligations.InvariantsHoldAtReset := by
  refine ⟨fun p => ?_, ⟨fun _ => ?_, fun e he => ?_, ?_, ?_⟩, NoticeUnit.sound_powerOn, Pool.sound_powerOn,
    StreamTable.sound_powerOn, ⟨fun p => ?_, fun p h => ?_, rfl, fun h => ?_, fun h => ?_, fun h => ?_⟩,
    ⟨fun l => ?_, fun l => ?_, fun f hf => ?_⟩, ?_⟩
  · rw [State.reset_port]
    exact ⟨Port.sound_powerOn false, by simp [State.line, State.reset]⟩
  · exact ⟨rfl, rfl, rfl, rfl, rfl⟩
  · cases he
  · exact Nat.zero_le 8
  · exact Nat.zero_le 8
  · rw [State.reset_port]; rfl
  · cases h
  · cases h
  · cases h
  · cases h
  · rw [State.reset_lane]; exact Lane.sound_powerOn l
  · rw [State.reset_lane]; exact Lane.timerSound_powerOn _
  · cases hf
  · simp only [State.CellsBalance, State.reset_lane, Lane.cells_powerOn, Finset.sum_const_zero]
    rfl

end Sys2Proof.Machine

/-! Proof of O54: the invariant of the field ports, kept by every operation of a port. -/

namespace Sys2Proof.Machine

/-! ## The fill of a FIFO (R10) -/

/-- The bytes that the reception of a port has stored. -/
def Port.storing (q : Port) : Nat :=
  match q.reception with
  | some (.accept bytes) => bytes.length
  | _ => 0

theorem Port.fill_eq (q : Port) : q.fill = (q.taken.getD []).length + (q.complete.map List.length).sum + q.storing := by
  have taken : (q.taken.toList.map List.length).sum = (q.taken.getD []).length := by cases q.taken <;> simp
  unfold Port.fill Port.fifo Port.storing
  rw [List.map_append, List.map_append, List.sum_append, List.sum_append, taken]
  cases q.reception with
  | none => rfl
  | some mode => cases mode <;> rfl

theorem Port.not_accepting {q : Port} (h : q.accepting = false) (bytes : List Byte) : q.reception ≠ some (.accept bytes) := by
  intro e
  simp [Port.accepting, e] at h

theorem Port.storing_of_quiet {q : Port} (h : q.accepting = false) : q.storing = 0 := by
  unfold Port.storing
  split
  · exact absurd ‹_› (Port.not_accepting h _)
  · rfl

/-! ## The parts of a port's soundness -/

/-- The part of a port's soundness that speaks of its state, its signal and its consecutive-bad count (R4, R18). -/
structure StateSound (state : PortState) (signal : Bool) (badCount : Nat) : Prop where
  bad : badCount ≤ 16
  fault : badCount = 16 → state = .fault ∨ state = .disabled
  up : state = .up → signal = true
  down : state = .down → signal = false

section
variable {q q' : Port}

theorem Port.Sound.states (h : q.Sound) : StateSound q.state q.signal q.badCount := ⟨h.bad, h.fault, h.up, h.down⟩

/-- A port with no ACCEPT frame in reception is sound by its fill, its marks and its state. -/
theorem Port.sound_of_quiet (quiet : q.accepting = false) (fill : q.fill ≤ 4096) (high : 3072 ≤ q.fill → q.fifoHigh = true)
    (low : q.fill ≤ 1024 → q.fifoHigh = false) (st : StateSound q.state q.signal q.badCount) : q.Sound where
  fill := fill
  accepted bytes e := absurd e (Port.not_accepting quiet bytes)
  accepting h := absurd h (by simp [quiet])
  high := high
  low := low
  bad := st.bad
  fault := st.fault
  up := st.up
  down := st.down

theorem Port.fill_le (quiet : q'.storing = 0) (taken : q'.taken = q.taken) (complete : q'.complete = q.complete) :
    q'.fill ≤ q.fill := by
  rw [Port.fill_eq, Port.fill_eq q, quiet, taken, complete]
  exact Nat.le_add_right _ _

theorem Port.fill_same (now : q'.storing = 0) (before : q.accepting = false) (taken : q'.taken = q.taken)
    (complete : q'.complete = q.complete) : q'.fill = q.fill := by
  rw [Port.fill_eq, Port.fill_eq q, now, Port.storing_of_quiet before, taken, complete]

/-- A change that leaves the fill, the mark and the flags of the FIFO as they are, and no ACCEPT frame. -/
theorem Port.Sound.quieted (h : q.Sound) (quiet : q'.accepting = false) (fill : q'.fill = q.fill)
    (flag : q'.fifoHigh = q.fifoHigh) (st : StateSound q'.state q'.signal q'.badCount) : q'.Sound :=
  Port.sound_of_quiet quiet (fill ▸ h.fill) (by rw [fill, flag]; exact h.high) (by rw [fill, flag]; exact h.low) st

theorem Port.afterRelease_flag (q : Port) : q.afterRelease.fifoHigh = (q.fifoHigh && decide (1024 < q.fill)) := rfl

/-- The flag after a release of bytes, from the flag before (R20). -/
theorem Port.Sound.marks_release (h : q.Sound) (fill : q'.fill ≤ q.fill) (flag : q'.fifoHigh = q.fifoHigh) :
    (3072 ≤ q'.fill → q'.afterRelease.fifoHigh = true) ∧ (q'.fill ≤ 1024 → q'.afterRelease.fifoHigh = false) := by
  rw [Port.afterRelease_flag, flag]
  refine ⟨fun full => ?_, fun low => ?_⟩
  · rw [h.high (by omega)]
    simpa using (by omega : 1024 < q'.fill)
  · simp [Nat.not_lt.mpr low]

/-- A frame leaves the FIFO, and no ACCEPT frame is left. -/
theorem Port.Sound.released (h : q.Sound) (quiet : q'.accepting = false) (fill : q'.fill ≤ q.fill)
    (flag : q'.fifoHigh = q.fifoHigh) (st : StateSound q'.state q'.signal q'.badCount) : q'.afterRelease.Sound :=
  Port.sound_of_quiet (q := q'.afterRelease) quiet (fill.trans h.fill) (h.marks_release fill flag).1
    (h.marks_release fill flag).2 ⟨st.bad, st.fault, st.up, st.down⟩

/-- Counters and the reset mark are not part of a port's soundness. -/
theorem Port.Sound.marked (h : q.Sound) (mark : Bool) (counters : PortCounters) :
    ({ q with resetMark := mark, counters := counters } : Port).Sound :=
  ⟨h.fill, h.accepted, h.accepting, h.high, h.low, h.bad, h.fault, h.up, h.down⟩

theorem Port.Sound.counted (h : q.Sound) (counters : PortCounters) : ({ q with counters := counters } : Port).Sound :=
  h.marked q.resetMark counters

/-- After a cut no frame is in reception. -/
theorem Port.Sound.cutReception (h : q.Sound) : q.cutReception.Sound ∧ q.cutReception.accepting = false := by
  unfold Port.cutReception
  have ended : q.accepting = false → ({ q with reception := none } : Port).Sound := fun quiet =>
    h.quieted rfl (Port.fill_same rfl quiet rfl rfl) rfl h.states
  split
  · rename_i e
    have quiet : q.accepting = false := by simp [Port.accepting, e]
    exact ⟨h, quiet⟩
  · exact ⟨h.released rfl (Port.fill_le rfl rfl rfl) rfl h.states, rfl⟩
  · exact ⟨h.released rfl (Port.fill_le rfl rfl rfl) rfl h.states, rfl⟩
  · rename_i e
    exact ⟨ended (by simp [Port.accepting, e]), rfl⟩
  · rename_i e
    exact ⟨(ended (by simp [Port.accepting, e])).counted _, rfl⟩
  · rename_i e
    exact ⟨(ended (by simp [Port.accepting, e])).counted _, rfl⟩

theorem Port.cutReception_signal (q : Port) : q.cutReception.signal = q.signal ∧ q.cutReception.state = q.state := by
  unfold Port.cutReception
  split <;> exact ⟨rfl, rfl⟩

theorem Port.Sound.gainSignal (h : q.Sound) : q.gainSignal.Sound := by
  have moved : ∀ st, st = (if q.state = .down then .up else q.state) →
      (q.state = .up → st = .up) ∧ (st = .fault ∨ st = .disabled ↔ q.state = .fault ∨ q.state = .disabled) ∧ st ≠ .down := by
    rintro st rfl
    cases q.state <;> decide
  obtain ⟨up, stopped, down⟩ := moved _ rfl
  exact ⟨h.fill, h.accepted, fun a => up (h.accepting a), h.high, h.low, h.bad, fun b => stopped.mpr (h.fault b), fun _ => rfl,
    fun d => absurd d down⟩

theorem Port.Sound.loseSignal (h : q.Sound) : q.loseSignal.Sound := by
  have moved : ∀ st, st = (if q.state = .up then .down else q.state) →
      (q.state = .fault ∨ q.state = .disabled → st = .fault ∨ st = .disabled) ∧ st ≠ .up := by
    rintro st rfl
    cases q.state <;> decide
  obtain ⟨stopped, up⟩ := moved _ rfl
  obtain ⟨sound, quiet⟩ := h.cutReception
  refine sound.quieted quiet rfl rfl ⟨sound.bad, fun b => stopped ?_, fun u => absurd u up, fun _ => rfl⟩
  rw [← q.cutReception_signal.2]
  exact sound.fault b

theorem Port.Sound.startFrame (h : q.Sound) : q.startFrame.Sound := by
  obtain ⟨sound, quiet⟩ := h.cutReception
  have begun {mode : Reception} (hm : q.startMode = some mode) :
      (∀ bytes, mode = .accept bytes → bytes = []) ∧ ((mode = .tooLong ∨ ∃ bytes, mode = .accept bytes) → q.state = .up) := by
    unfold Port.startMode at hm
    split at hm
    · cases hm; simp
    · split at hm <;> cases hm <;> simp_all
  unfold Port.startFrame
  split
  · rename_i mode hm
    obtain ⟨empty, up⟩ := begun hm
    have stored : ({ q.cutReception with reception := some mode } : Port).storing = 0 := by
      cases mode with
      | accept bytes => rw [empty bytes rfl]; rfl
      | _ => rfl
    have fill : ({ q.cutReception with reception := some mode } : Port).fill = q.cutReception.fill :=
      Port.fill_same stored quiet rfl rfl
    refine ⟨fill ▸ sound.fill, fun bytes e => ?_, fun a => ?_, by rw [fill]; exact sound.high, by rw [fill]; exact sound.low,
      sound.bad, sound.fault, sound.up, sound.down⟩
    · rw [empty bytes (Option.some.inj e)]
      exact Nat.zero_le _
    · refine q.cutReception_signal.2.trans (up ?_)
      cases mode with
      | accept bytes => exact .inr ⟨bytes, rfl⟩
      | tooLong => exact .inl rfl
      | _ => cases a
  · exact h

theorem Port.Sound.markTooLong (h : q.Sound) (ha : q.accepting = true) : q.markTooLong.Sound := by
  have fill : ({ q with reception := some .tooLong } : Port).fill ≤ q.fill := Port.fill_le rfl rfl rfl
  exact ⟨fill.trans h.fill, by nofun, fun _ => h.accepting ha, (h.marks_release fill rfl).1, (h.marks_release fill rfl).2,
    h.bad, h.fault, h.up, h.down⟩

theorem Port.Sound.overflow (h : q.Sound) : q.overflow.Sound :=
  h.released rfl (Port.fill_le rfl rfl rfl) rfl h.states

theorem Port.Sound.storeByte (h : q.Sound) {bytes : List Byte} (hr : q.reception = some (.accept bytes)) (b : Byte)
    (short : bytes.length < 1024) (room : q.fill < 4096) : (q.storeByte bytes b).Sound := by
  have before : q.storing = bytes.length := by simp [Port.storing, hr]
  have fill : ({ q with reception := some (.accept (bytes ++ [b])) } : Port).fill = q.fill + 1 := by
    rw [Port.fill_eq, Port.fill_eq q, before]
    simp only [Port.storing, List.length_append, List.length_singleton]
    omega
  have flag : (q.storeByte bytes b).fifoHigh = (q.fifoHigh || decide (3072 ≤ q.fill + 1)) := by rw [← fill]; rfl
  have stored : (q.storeByte bytes b).fill = q.fill + 1 := fill
  refine ⟨stored ▸ room, fun bytes' e => ?_, fun _ => h.accepting (by simp [Port.accepting, hr]), fun full => ?_, fun low => ?_,
    h.bad, h.fault, h.up, h.down⟩
  · obtain rfl : bytes ++ [b] = bytes' := Reception.accept.inj (Option.some.inj e)
    simpa using short
  · rw [flag]
    simp [stored ▸ full]
  · rw [flag, h.low (by omega)]
    simp only [Bool.false_or, decide_eq_false_iff_not]
    omega

theorem Port.Sound.badFrame (h : q.Sound) (ha : q.accepting = true) (f : PortCounters → PortCounters) : (q.badFrame f).Sound := by
  have up := h.accepting ha
  have bad : q.badCount < 16 := by
    refine Nat.lt_of_le_of_ne h.bad fun e => ?_
    rcases h.fault e with d | d <;> rw [up] at d <;> cases d
  refine h.released (q' := { q with reception := none, badCount := _, state := _, counters := _ }) rfl
    (Port.fill_le rfl rfl rfl) rfl ⟨bad, fun e => .inl (if_pos e), fun _ => h.up up, fun d => ?_⟩
  dsimp only at d
  split at d
  · cases d
  · exact h.down d

theorem StateSound.calm {state : PortState} {signal : Bool} {n : Nat} (h : StateSound state signal n) :
    StateSound state signal 0 :=
  ⟨Nat.zero_le _, by nofun, h.up, h.down⟩

theorem Port.Sound.unknownFrame (h : q.Sound) : q.unknownFrame.Sound :=
  h.released (q' := { q with reception := none, badCount := 0, counters := _ }) rfl (Port.fill_le rfl rfl rfl) rfl
    h.states.calm

theorem Port.Sound.goodFrame (h : q.Sound) {bytes : List Byte} (hr : q.reception = some (.accept bytes)) :
    (q.goodFrame bytes).Sound := by
  refine h.quieted rfl ?_ rfl h.states.calm
  rw [Port.fill_eq, Port.fill_eq q]
  simp [Port.goodFrame, Port.storing, hr, Nat.add_assoc]

theorem Port.discardFrames_quiet (q : Port) :
    ({ q with complete := [], reception := if q.accepting then some .spent else q.reception } : Port).accepting = false := by
  cases a : q.accepting with
  | true => rfl
  | false => simpa [Port.accepting] using a

theorem Port.fill_discardFrames (q : Port) : q.discardFrames.fill = (q.taken.getD []).length := by
  have none : ({ q with complete := [], reception := if q.accepting then some .spent else q.reception } : Port).storing = 0 :=
    Port.storing_of_quiet q.discardFrames_quiet
  have fill := Port.fill_eq { q with complete := [], reception := if q.accepting then some .spent else q.reception }
  rw [none] at fill
  exact fill

theorem Port.fill_discardFrames_le (q : Port) : q.discardFrames.fill ≤ q.fill := by
  rw [Port.fill_discardFrames, Port.fill_eq]
  omega

theorem Port.Sound.discardFrames (h : q.Sound) : q.discardFrames.Sound :=
  h.released q.discardFrames_quiet q.fill_discardFrames_le rfl h.states

theorem Port.Sound.disable (h : q.Sound) : q.disable.Sound :=
  h.discardFrames.quieted q.discardFrames_quiet rfl rfl ⟨h.bad, fun _ => .inr rfl, by nofun, by nofun⟩

theorem Port.Sound.resetStart (h : q.Sound) : q.resetStart.Sound := h.discardFrames.marked true _

theorem Port.Sound.resetEnd (h : q.Sound) : q.resetEnd.Sound := h.marked false _

theorem Port.Sound.enable (h : q.Sound) (hs : q.state = .disabled ∨ q.state = .fault) : q.enable.Sound := by
  have quiet : q.accepting = false := by
    cases a : q.accepting with
    | false => rfl
    | true => rw [h.accepting a] at hs; rcases hs with e | e <;> cases e
  refine h.quieted quiet rfl rfl ⟨Nat.zero_le _, by nofun, fun u => ?_, fun d => ?_⟩
  · cases e : q.signal with
    | true => exact e
    | false => simp [Port.enable, e] at u
  · cases e : q.signal with
    | true => simp [Port.enable, e] at d
    | false => exact e

theorem Port.Sound.release (h : q.Sound) : q.release.Sound := by
  have fill : ({ q with taken := none } : Port).fill ≤ q.fill := by
    rw [Port.fill_eq, Port.fill_eq q]
    simp [Port.storing]
  exact ⟨fill.trans h.fill, h.accepted, h.accepting, (h.marks_release fill rfl).1, (h.marks_release fill rfl).2, h.bad, h.fault,
    h.up, h.down⟩

theorem Port.Sound.offer (h : q.Sound) {frame : List Byte} (ho : q.offer = some (frame, q')) :
    q'.Sound ∧ q'.signal = q.signal := by
  unfold Port.offer at ho
  split at ho
  · rename_i rest taken complete
    cases ho
    have fill : ({ q with taken := some frame, complete := rest } : Port).fill = q.fill := by
      rw [Port.fill_eq, Port.fill_eq q, taken, complete]
      simp [Port.storing]
    exact ⟨⟨fill ▸ h.fill, h.accepted, h.accepting, by rw [fill]; exact h.high, by rw [fill]; exact h.low, h.bad, h.fault, h.up,
      h.down⟩, rfl⟩
  · cases ho

end

end Sys2Proof.Machine

namespace Sys2Proof.Machine

/-! ## The eight ports -/

section
variable {s t : State}

theorem State.PortsSound.of_eq (h : s.PortsSound) (hp : t.ports = s.ports) (hl : t.lines = s.lines) : t.PortsSound := by
  intro p
  have port : t.port p = s.port p := by unfold State.port; rw [hp]
  have line : t.line p = s.line p := by unfold State.line; rw [hl]
  rw [port, line]
  exact h p

theorem State.PortsSound.of_keeps (h : s.PortsSound) {fp : Footprint} (k : s.Keeps fp t) (hp : fp.ports = false) : t.PortsSound :=
  h.of_eq (k.ports hp) k.line.2.1

theorem State.PortsSound.setPort (h : s.PortsSound) (p : PortId) {x : Port} (hx : x.Sound) (signal : x.signal = (s.port p).signal) :
    (s.setPort p x).PortsSound := by
  intro q
  by_cases e : q = p
  · subst e
    rw [State.port_setPort]
    exact ⟨hx, signal.trans (h q).2⟩
  · rw [State.port_setPort_ne s x e]
    exact h q

theorem State.port_map (f : Port → Port) (p : PortId) : ({ s with ports := s.ports.map f } : State).port p = f (s.port p) := by
  simp [State.port]

theorem State.PortsSound.map (h : s.PortsSound) (f : Port → Port) (hf : ∀ q : Port, q.Sound → (f q).Sound ∧ (f q).signal = q.signal) :
    ({ s with ports := s.ports.map f } : State).PortsSound := by
  intro p
  rw [State.port_map]
  exact ⟨(hf _ (h p).1).1, (hf _ (h p).1).2.trans (h p).2⟩

theorem State.PortsSound.countPort (h : s.PortsSound) (p : PortId) (f : PortCounters → PortCounters) : (s.countPort p f).PortsSound :=
  h.setPort p ((h p).1.counted _) rfl

theorem State.PortsSound.arbitrate (h : s.PortsSound) : s.arbitrate.PortsSound := h.of_keeps s.arbitrate_keeps rfl

theorem State.PortsSound.raised (h : s.PortsSound) (i : SourceNo) : (s.raise i).arbitrate.PortsSound :=
  (h.of_keeps (s.raise_keeps i) rfl).arbitrate

/-! ### The field lines -/

theorem State.PortsSound.lineChanges (h : s.PortsSound) (p : PortId) (signal : Bool) : (s.lineChanges p signal).PortsSound := by
  have changed : ∀ x : Port, x.Sound → x.signal = signal → ((s.setLine p signal).setPort p x).PortsSound := by
    intro x hx hsignal q
    by_cases e : q = p
    · subst e
      rw [State.port_setPort, State.setPort_line, State.line_setLine]
      exact ⟨hx, hsignal⟩
    · rw [State.port_setPort_ne _ x e, State.setPort_line, State.line_setLine_ne _ _ e]
      exact h q
  unfold State.lineChanges
  cases signal with
  | true => exact changed _ (h p).1.gainSignal rfl
  | false => exact changed _ (h p).1.loseSignal rfl

theorem Port.startFrame_signal (q : Port) : q.startFrame.signal = q.signal := by
  unfold Port.startFrame
  split
  · exact q.cutReception_signal.1
  · rfl

theorem State.PortsSound.startFrame (h : s.PortsSound) (p : PortId) : (s.setPort p (s.port p).startFrame).PortsSound :=
  h.setPort p (h p).1.startFrame (Port.startFrame_signal _)

theorem State.PortsSound.fieldByte (h : s.PortsSound) (p : PortId) (b : Byte) : (s.fieldByte p b).PortsSound := by
  unfold State.fieldByte
  dsimp only
  split
  · rename_i bytes hr
    split
    · exact h.setPort p ((h p).1.markTooLong (by simp [Port.accepting, hr])) rfl
    · rename_i short
      split
      · exact (h.setPort p (h p).1.overflow rfl).raised _
      · rename_i room
        exact h.setPort p ((h p).1.storeByte hr b (Nat.lt_of_not_le short) (Nat.lt_of_not_le room)) rfl
  · exact h

theorem State.PortsSound.badFrameEnds (h : s.PortsSound) (p : PortId) (ha : (s.port p).accepting = true)
    (f : PortCounters → PortCounters) : (s.badFrameEnds p f).PortsSound := by
  have ended := h.setPort p ((h p).1.badFrame ha f) rfl
  unfold State.badFrameEnds
  dsimp only
  split
  · exact ended.raised _
  · exact ended

theorem State.PortsSound.fieldEnd (h : s.PortsSound) (p : PortId) : (s.fieldEnd p).PortsSound := by
  have ended (counters : PortCounters) (quiet : (s.port p).accepting = false) :
      (s.setPort p { s.port p with reception := none, counters := counters }).PortsSound :=
    h.setPort p ((h p).1.quieted rfl (Port.fill_same rfl quiet rfl rfl) rfl (h p).1.states) rfl
  unfold State.fieldEnd
  dsimp only
  split
  · exact h
  · rename_i hr
    exact h.badFrameEnds p (by simp [Port.accepting, hr]) _
  · rename_i bytes hr
    have accepting : (s.port p).accepting = true := by simp [Port.accepting, hr]
    split
    · exact h.badFrameEnds p accepting _
    · split
      · exact h.badFrameEnds p accepting _
      · split
        · exact h.setPort p (h p).1.unknownFrame rfl
        · exact h.setPort p ((h p).1.goodFrame hr) rfl
  · rename_i hr
    exact ended _ (by simp [Port.accepting, hr])
  · rename_i hr
    exact ended _ (by simp [Port.accepting, hr])
  · rename_i hr
    exact ended _ (by simp [Port.accepting, hr])

/-! ### The Classifier at its port -/

theorem State.PortsSound.release (h : s.PortsSound) (p : PortId) : (s.setPort p (s.port p).release).PortsSound :=
  h.setPort p (h p).1.release rfl

theorem State.PortsSound.beginRecord (h : s.PortsSound) (f : FrameInProgress) (i : Nat) : (s.beginRecord f i).PortsSound :=
  State.PortsSound.countPort (s := { s with classifier := { s.classifier with frame := some { f with index := i, stage := .lookup } } })
    (h.of_eq rfl rfl) f.port _

theorem State.PortsSound.recordEnds (h : s.PortsSound) (f : FrameInProgress) : (s.recordEnds f).PortsSound := by
  unfold State.recordEnds
  split
  · unfold State.endFrame
    dsimp only
    split <;> exact (h.release f.port).of_eq rfl rfl
  · exact h.beginRecord f _

theorem State.PortsSound.routeEnds (h : s.PortsSound) (f : FrameInProgress) (route : Route) (o : UpdateOutcome) :
    (s.routeEnds f route o).PortsSound := by
  unfold State.routeEnds
  split
  · exact h.of_keeps (s.setStage_keeps f _) rfl
  · exact h.recordEnds f

theorem State.PortsSound.takeFrame (h : s.PortsSound) : s.takeFrame.PortsSound := by
  unfold State.takeFrame
  split
  · rename_i p _ _
    split
    · rename_i bytes q offered
      obtain ⟨sound, signal⟩ := (h p).1.offer offered
      have taken (x : Classifier) : ({ s.setPort p q with classifier := x } : State).PortsSound :=
        (h.setPort p sound signal).of_eq rfl rfl
      dsimp only
      split
      · exact (taken _).beginRecord _ _
      · exact ((taken _).countPort p _).release p
    · exact h
  · exact h

theorem State.PortsSound.searchStage (h : s.PortsSound) : s.searchStage.PortsSound := by
  unfold State.searchStage
  split
  · rename_i f _
    split
    · split
      · exact (((h.countPort f.port _).of_keeps (State.raise_keeps _ _) rfl).recordEnds f).arbitrate
      · dsimp only
        split
        · exact (h.countPort f.port _).recordEnds f
        · split <;> exact h.of_keeps (s.setStage_keeps f _) rfl
    · exact h
  · exact h

theorem State.PortsSound.resolveStage (h : s.PortsSound) : s.resolveStage.PortsSound := by
  have counted (x : Classifier) : ({ s with classifier := x } : State).PortsSound := h.of_eq rfl rfl
  unfold State.resolveStage
  split
  · rename_i f _
    split
    · split
      · exact h.of_keeps (s.setStage_keeps f _) rfl
      · exact (counted _).routeEnds f _ _
      · exact (counted _).routeEnds f _ _
    · exact h
  · exact h

theorem State.PortsSound.placeStage (h : s.PortsSound) : s.placeStage.PortsSound := by
  unfold State.placeStage
  split
  · rename_i f _
    split
    · exact ((h.of_keeps (s.place_keeps _ _) rfl).routeEnds f _ _).arbitrate
    · exact h
  · exact h

theorem State.PortsSound.updateStage (h : s.PortsSound) : s.updateStage.PortsSound := by
  have updated (x : StreamTable) : ({ s with streams := x } : State).PortsSound := h.of_eq rfl rfl
  unfold State.updateStage
  split
  · rename_i f _
    split
    · exact (updated _).recordEnds f
    · exact h
  · exact h

/-! ### The commands -/

theorem State.PortsSound.runCommand (h : s.PortsSound) {α : Type} {code : Byte} {parse : List Byte → Option α}
    {need : α → SessionNeed} {effect : State → Command → α → State}
    (taken : ∀ (s : State) c a, s.PortsSound → (effect s c a).PortsSound) : (s.runCommand code parse need effect).PortsSound :=
  State.runCommand_cases s code parse need effect State.PortsSound h (fun _ _ _ _ _ => h.of_eq rfl rfl)
    fun _ _ _ _ _ _ _ _ => taken _ _ _ (h.of_eq rfl rfl)

theorem State.PortsSound.finish (h : s.PortsSound) (c : Command) (st : Status) (bytes : List Byte) :
    (s.finish c st bytes).PortsSound := h.of_eq rfl rfl

theorem State.PortsSound.portSet (h : s.PortsSound) (c : Command) (a : PortSetParams) : (s.portSet c a).PortsSound := by
  unfold State.portSet
  split
  · exact h.finish c _ _
  · rename_i p _
    have enabled (stopped : (s.port p).state = .disabled ∨ (s.port p).state = .fault) :=
      (h.setPort p ((h p).1.enable stopped) rfl).finish c
    have disabled := (h.setPort p (h p).1.disable rfl).finish c
    dsimp only
    split
    · split
      · exact enabled (.inl ‹_›) _ _
      · exact enabled (.inr ‹_›) _ _
      · exact h.finish c _ _
      · exact h.finish c _ _
    · split
      · exact h.finish c _ _
      · exact disabled _ _
      · exact disabled _ _
      · exact disabled _ _

theorem State.PortsSound.datapathReset (h : s.PortsSound) (c : Command) (a : Unit) : (s.datapathReset c a).PortsSound := by
  have started : s.resetPorts.PortsSound := h.map _ fun q hq => ⟨hq.resetStart, rfl⟩
  unfold State.datapathReset
  dsimp only
  split <;> exact started.of_eq rfl rfl

theorem State.PortsSound.phase4 (h : s.PortsSound) : s.phase4.PortsSound := by
  unfold State.phase4
  split
  · have ended := (h.of_keeps s.disableLanes_keeps rfl).map Port.resetEnd fun q hq => ⟨hq.resetEnd, rfl⟩
    exact ended.of_eq rfl rfl
  · exact h

theorem State.PortsSound.clearOwner (h : s.PortsSound) (o : CounterOwner) : (s.clearOwner o).PortsSound := by
  cases o with
  | port p => exact h.countPort p _
  | _ => exact h.of_eq rfl rfl

theorem State.readOwner_cases (P : State → Prop) (s : State) (c : Command) (clear : Bool) (left : List CounterOwner)
    (result : List Byte) (executing : ∀ (t : State) x, P t → P { t with mu := { t.mu with executing := some x } }) (keep : P s)
    (cleared : ∀ o, P (s.clearOwner o)) : P (s.readOwner c clear left result) := by
  have after (o : CounterOwner) : P (if clear then s.clearOwner o else s) := by
    cases clear with
    | true => exact cleared o
    | false => exact keep
  unfold State.readOwner
  split
  · exact executing _ _ keep
  · dsimp only
    split <;> exact executing _ _ (after _)

theorem State.PortsSound.readOwner (h : s.PortsSound) (c : Command) (clear : Bool) (left : List CounterOwner) (result : List Byte) :
    (s.readOwner c clear left result).PortsSound :=
  s.readOwner_cases _ c clear left result (fun _ _ h => h.of_eq rfl rfl) h h.clearOwner

theorem State.PortsSound.stepReadCounters (h : s.PortsSound) : s.stepReadCounters.PortsSound := by
  unfold State.stepReadCounters
  split
  · exact h.readOwner _ _ _ _
  · refine h.runCommand fun s c a h => ?_
    unfold State.readCounters
    split
    · exact h.readOwner _ _ _ _
    · exact h.finish c _ _

/-! ### Every command -/

theorem State.PortsSound.exec {c : Instr} (hs : s.PortsSound) (h : exec c s = .next t) (hc : ofPins c = false) : t.PortsSound := by
  cases c with
  | powerOnReset | resetRelease | lineSignalGained | lineSignalLost => cases hc
  | fieldStartDelimiter p => rw [exec_fieldStartDelimiter] at h; exact onPort_keeps h hs hs.startFrame
  | fieldByteArrival p b => rw [exec_fieldByteArrival] at h; exact onPort_keeps h hs fun q => hs.fieldByte q b
  | fieldEndDelimiter p => rw [exec_fieldEndDelimiter] at h; exact onPort_keeps h hs hs.fieldEnd
  | frameTake => rw [exec_frameTake] at h; exact running_keeps h hs hs.takeFrame
  | ruleSearch => rw [exec_ruleSearch] at h; exact running_keeps h hs hs.searchStage
  | laneResolution => rw [exec_laneResolution] at h; exact running_keeps h hs hs.resolveStage
  | placement => rw [exec_placement] at h; exact running_keeps h hs hs.placeStage
  | streamUpdate => rw [exec_streamUpdate] at h; exact running_keeps h hs hs.updateStage
  | portSet => rw [exec_portSet] at h; exact running_keeps h hs (hs.runCommand fun _ c a h => h.portSet c a)
  | datapathReset => rw [exec_datapathReset] at h; exact running_keeps h hs (hs.runCommand fun _ c a h => h.datapathReset c a)
  | resetPhase4 => rw [exec_resetPhase4] at h; exact running_keeps h hs hs.phase4
  | readCounters => rw [exec_readCounters] at h; exact running_keeps h hs hs.stepReadCounters
  | _ => exact hs.of_keeps (exec_keepsFootprint h rfl) rfl

end

/-- Settles O54: the ports are sound at power-on, and every operation of a port keeps it so. -/
theorem everyStepKeepsPortsSound : Obligations.EveryStepKeepsPortsSound := by
  intro s t hd hs h
  refine step_keeps (P := State.PortsSound) (fun s rest h => h.of_eq rfl rfl) (fun s p => ?_) (fun s straps h => h.of_eq rfl rfl)
    (fun s p signal h => h.lineChanges p signal) (fun s h => ?_) (fun c s t hs h hc => hs.exec h hc) hd hs h
  · rw [s.powerOn_port]
    exact ⟨Port.sound_powerOn _, rfl⟩
  · unfold State.tick
    split
    · exact h.of_eq rfl rfl
    · exact h

end Sys2Proof.Machine

/-! Proof of O57: no two entries of the stream table share a key. -/

namespace Sys2Proof.Machine

section
variable {t t' : StreamTable}

theorem StreamTable.slot_write_eq (t : StreamTable) (n m : StreamNo) (e : Option StreamEntry) :
    (t.write n e).slot m = if m = n then ⟨(t.slot n).generation + 1, e⟩ else t.slot m := t.slot_setSlot_eq n m _

/-- A change after which every entry is where an entry with its key was. -/
theorem StreamTable.Sound.of_keys (h : t.Sound)
    (keys : ∀ n e', (t'.slot n).entry = some e' → ∃ e, (t.slot n).entry = some e ∧ e.key = e'.key) : t'.Sound where
  place n e' he' := by
    obtain ⟨e, he, key⟩ := keys n e' he'
    rw [← key]
    exact h.place n e he
  unique n m e' f' he' hf' same := by
    obtain ⟨e, he, key⟩ := keys n e' he'
    obtain ⟨f, hf, key'⟩ := keys m f' hf'
    exact h.unique n m e f he hf (by rw [key, key', same])

theorem StreamTable.Sound.of_slots (h : t.Sound) (hs : t'.slots = t.slots) : t'.Sound :=
  h.of_keys fun n e he => ⟨e, by rw [← he]; unfold StreamTable.slot; rw [hs], rfl⟩

/-- A slot takes an entry with the key of the one it has, or none. -/
theorem StreamTable.Sound.setSlot (h : t.Sound) (n : StreamNo) (x : Slot)
    (keys : ∀ e', x.entry = some e' → ∃ e, (t.slot n).entry = some e ∧ e.key = e'.key) : (t.setSlot n x).Sound := by
  refine h.of_keys fun m e' he' => ?_
  rw [t.slot_setSlot_eq n m x] at he'
  split at he'
  · rename_i same
    exact same ▸ keys e' he'
  · exact ⟨e', he', rfl⟩

/-- No entry of a sound table has a key that a search does not find. -/
theorem StreamTable.Sound.lacks (h : t.Sound) {k : Key} (hf : t.find k = none) (n : StreamNo) (e : StreamEntry)
    (he : (t.slot n).entry = some e) : e.key ≠ k := by
  rintro rfl
  have inside : n ∈ e.key.slots := (e.key.mem_slots n).mpr (h.place n e he)
  exact List.find?_eq_none.mp hf n inside (by simp [StreamTable.holds, he])

/-- A key that the table lacks goes to a free slot of its bucket. -/
theorem StreamTable.Sound.insert (h : t.Sound) {k : Key} (hf : t.find k = none) {n : StreamNo} (hn : t.freeSlot k = some n)
    {x : StreamEntry} (hx : x.key = k) : (t.write n (some x)).Sound := by
  have place : n.val / 4 = x.key.bucket := hx ▸ (k.mem_slots n).mp (List.mem_of_find?_eq_some hn)
  have entry (m : StreamNo) (e : StreamEntry) (he : ((t.write n (some x)).slot m).entry = some e) :
      (m = n ∧ e = x) ∨ (m ≠ n ∧ (t.slot m).entry = some e) := by
    rw [t.slot_write_eq n m] at he
    split at he
    · exact .inl ⟨‹_›, (Option.some.inj he).symm⟩
    · exact .inr ⟨‹_›, he⟩
  refine ⟨fun m e he => ?_, fun m o e f he hf' same => ?_⟩
  · rcases entry m e he with ⟨rfl, rfl⟩ | ⟨-, he⟩
    · exact place
    · exact h.place m e he
  · rcases entry m e he with ⟨hm, ex⟩ | ⟨-, old⟩ <;> rcases entry o f hf' with ⟨ho, fx⟩ | ⟨-, old'⟩
    · rw [hm, ho]
    · exact absurd (same.symm.trans (ex ▸ hx)) (h.lacks hf o f old')
    · exact absurd (same.trans (fx ▸ hx)) (h.lacks hf m e old)
    · exact h.unique m o e f old old' same

/-- A search finds a slot with an entry of the key. -/
theorem StreamTable.find_entry {k : Key} {n : StreamNo} (h : t.find k = some n) : ∃ e, (t.slot n).entry = some e ∧ e.key = k := by
  have holds := List.find?_some h
  unfold StreamTable.holds at holds
  split at holds
  · exact ⟨_, ‹_›, by simpa using holds⟩
  · cases holds

theorem StreamTable.find_of_lookup {k : Key} (h : t.lookup k = none) : t.find k = none := by
  unfold StreamTable.lookup at h
  split at h
  · rename_i n hn
    obtain ⟨e, he, -⟩ := StreamTable.find_entry hn
    rw [he] at h
    cases h
  · assumption

theorem StreamTable.Sound.learn (h : t.Sound) (k : Key) (cls : ClassId) (stale : StalePolicy) : (t.learn k cls stale).1.Sound := by
  unfold StreamTable.learn
  split
  · exact h
  · rename_i missing
    split
    · rename_i n free
      exact (h.insert (StreamTable.find_of_lookup missing) free (x := learnedEntry k cls stale) rfl).of_slots rfl
    · exact h.of_slots rfl

theorem StreamEntry.update_key (e : StreamEntry) (u : UpdateRequest) : (e.update u).key = e.key := by
  unfold StreamEntry.update StreamEntry.count
  split <;> rfl

theorem StreamTable.Sound.update (h : t.Sound) (u : UpdateRequest) : (t.update u).Sound := by
  unfold StreamTable.update
  split
  · rename_i e he
    split
    · refine h.setSlot _ _ fun e' he' => ⟨e, he, ?_⟩
      rw [← Option.some.inj he']
      exact (e.update_key u).symm
    · exact h
  · exact h

theorem StreamTable.Sound.clearDynamic (h : t.Sound) : t.clearDynamic.Sound := by
  refine h.of_keys fun n e' he' => ?_
  have slot : (t.clearDynamic.slot n).entry = (t.slot n).entry.map fun e => { e with lastTimestamp := none, decimationCount := 0 } := by
    simp [StreamTable.clearDynamic, StreamTable.slot]
  rw [slot] at he'
  obtain ⟨e, he, rfl⟩ := Option.map_eq_some_iff.mp he'
  exact ⟨e, he, rfl⟩

end

section
variable {s t : State}

/-- The invariant of the stream table, of the whole part. -/
def State.StreamsSound (s : State) : Prop := s.streams.Sound

theorem State.StreamsSound.of_keeps (h : s.StreamsSound) {fp : Footprint} (k : s.Keeps fp t) (hp : fp.streams = false) :
    t.StreamsSound := by
  unfold State.StreamsSound
  rw [k.streams hp]
  exact h

theorem State.StreamsSound.runCommand (h : s.StreamsSound) {α : Type} {code : Byte} {parse : List Byte → Option α}
    {need : α → SessionNeed} {effect : State → Command → α → State}
    (taken : ∀ (s : State) c a, s.StreamsSound → (effect s c a).StreamsSound) : (s.runCommand code parse need effect).StreamsSound :=
  State.runCommand_cases s code parse need effect State.StreamsSound h (fun _ _ _ _ _ => h) fun _ _ _ _ _ _ _ _ => taken _ _ _ h

theorem State.StreamsSound.learnStage (h : s.StreamsSound) : s.learnStage.StreamsSound := by
  unfold State.learnStage
  split
  · rename_i f _
    split
    · rename_i i cls stale r _ _
      have learned : ({ s with streams := (s.streams.learn (f.key r) cls stale).1 } : State).StreamsSound := h.learn _ _ _
      dsimp only
      split
      · exact learned.of_keeps (State.judgeHit_keeps _ _ _ _) rfl
      · exact learned.of_keeps (State.judgeHit_keeps _ _ _ _) rfl
      · exact ((learned.of_keeps (State.raise_keeps _ _) rfl).of_keeps (State.setStage_keeps _ _ _) rfl).of_keeps
          (State.arbitrate_keeps _) rfl
    · exact h
  · exact h

theorem State.StreamsSound.updateStage (h : s.StreamsSound) : s.updateStage.StreamsSound := by
  unfold State.updateStage
  split
  · split
    · rename_i u _
      have updated : ({ s with streams := s.streams.update u } : State).StreamsSound := h.update u
      exact updated.of_keeps (State.recordEnds_keeps _ _) rfl
    · exact h
  · exact h

theorem State.StreamsSound.streamWrite (h : s.StreamsSound) (c : Command) (a : StreamWriteParams) :
    (s.streamWrite c a).StreamsSound := by
  unfold State.streamWrite
  split
  · exact h
  · rename_i w _
    split
    · rename_i n hn
      refine StreamTable.Sound.setSlot h n _ fun e' he' => ?_
      obtain ⟨e, he, rfl⟩ := Option.map_eq_some_iff.mp he'
      exact ⟨e, he, rfl⟩
    · rename_i missing
      split
      · rename_i n free
        exact StreamTable.Sound.insert h missing free (x := w.insert) rfl
      · exact h

theorem State.StreamsSound.streamDelete (h : s.StreamsSound) (c : Command) (k : RawKey) : (s.streamDelete c k).StreamsSound := by
  unfold State.streamDelete
  split
  · exact h
  · split
    · exact StreamTable.Sound.setSlot h _ _ (by nofun)
    · exact h

theorem State.StreamsSound.streamRead (h : s.StreamsSound) (c : Command) (a : StreamReadParams) : (s.streamRead c a).StreamsSound := by
  unfold State.streamRead
  split
  · exact h
  · exact h
  · split
    · exact h
    · rename_i e he
      dsimp only
      split
      · exact StreamTable.Sound.setSlot h _ _ fun e' he' => ⟨e, he, by rw [← Option.some.inj he']; rfl⟩
      · exact h

theorem State.StreamsSound.phase4 (h : s.StreamsSound) : s.phase4.StreamsSound := by
  unfold State.phase4
  split
  · exact StreamTable.Sound.clearDynamic (h.of_keeps s.disableLanes_keeps rfl)
  · exact h

theorem State.StreamsSound.clearOwner (h : s.StreamsSound) (o : CounterOwner) : (s.clearOwner o).StreamsSound := by
  cases o with
  | streams => exact StreamTable.Sound.of_slots h rfl
  | _ => exact h

theorem State.StreamsSound.readOwner (h : s.StreamsSound) (c : Command) (clear : Bool) (left : List CounterOwner)
    (result : List Byte) : (s.readOwner c clear left result).StreamsSound :=
  s.readOwner_cases _ c clear left result (fun _ _ h => h) h h.clearOwner

theorem State.StreamsSound.stepReadCounters (h : s.StreamsSound) : s.stepReadCounters.StreamsSound := by
  unfold State.stepReadCounters
  split
  · exact h.readOwner _ _ _ _
  · refine h.runCommand fun s c a h => ?_
    unfold State.readCounters
    split
    · exact h.readOwner _ _ _ _
    · exact h

theorem State.StreamsSound.exec {c : Instr} (hs : s.StreamsSound) (h : exec c s = .next t) (hc : ofPins c = false) :
    t.StreamsSound := by
  cases c with
  | powerOnReset | resetRelease | lineSignalGained | lineSignalLost => cases hc
  | learnInsert => rw [exec_learnInsert] at h; exact running_keeps h hs hs.learnStage
  | streamUpdate => rw [exec_streamUpdate] at h; exact running_keeps h hs hs.updateStage
  | streamWrite => rw [exec_streamWrite] at h; exact running_keeps h hs (hs.runCommand fun _ c a h => h.streamWrite c a)
  | streamDelete => rw [exec_streamDelete] at h; exact running_keeps h hs (hs.runCommand fun _ c a h => h.streamDelete c a)
  | streamRead => rw [exec_streamRead] at h; exact running_keeps h hs (hs.runCommand fun _ c a h => h.streamRead c a)
  | resetPhase4 => rw [exec_resetPhase4] at h; exact running_keeps h hs hs.phase4
  | readCounters => rw [exec_readCounters] at h; exact running_keeps h hs hs.stepReadCounters
  | _ => exact hs.of_keeps (exec_keepsFootprint h rfl) rfl

end

/-- Settles O57: an entry is written where its key was, or where a search found the key nowhere. -/
theorem everyStepKeepsStreamKeysApart : Obligations.EveryStepKeepsStreamKeysApart := by
  intro s t hd hs h
  refine step_keeps (P := State.StreamsSound) (fun _ _ h => h) (fun _ => StreamTable.sound_powerOn) (fun _ _ h => h)
    (fun _ _ _ h => h) (fun s h => ?_) (fun c s t hs h hc => hs.exec h hc) hd hs h
  unfold State.tick
  split <;> exact h

end Sys2Proof.Machine

/-! Proof of O56: the notice sources and their queue, and pool hold. -/

namespace Sys2Proof.Machine

/-! ## The Notice Unit (R185 to R193) -/

/-- A source that is not PENDING has gathered nothing, and a PENDING one has. -/
def Source.Sound (x : Source) : Prop := (x.arming ≠ .pending → x.count = 0) ∧ (x.arming = .pending → x.count ≠ 0)

theorem Source.sound_quiet : (⟨.quiet, 0⟩ : Source).Sound := ⟨fun _ => rfl, nofun⟩

theorem Source.sound_pending {n : BitVec 16} (h : n ≠ 0) : (⟨.pending, n⟩ : Source).Sound := ⟨fun e => absurd rfl e, fun _ => h⟩

section
variable {u u' : NoticeUnit}

theorem NoticeUnit.Sound.setSource (h : u.Sound) (i : SourceNo) {x : Source} (hx : x.Sound) : (u.setSource i x).Sound where
  calm j := by
    rw [u.source_setSource_eq i j]
    split
    · exact hx.1
    · exact h.calm j
  gathered j := by
    rw [u.source_setSource_eq i j]
    split
    · exact hx.2
    · exact h.gathered j
  places := h.places
  counted := h.counted

theorem NoticeUnit.Sound.lose (h : u.Sound) : u.lose.Sound := ⟨h.calm, h.gathered, h.places, h.counted⟩

theorem NoticeUnit.Sound.offer (h : u.Sound) {n : Notice} (hn : n.count ≠ 0) (ho : u.offer n = some u') : u'.Sound := by
  unfold NoticeUnit.offer at ho
  split at ho
  · rename_i room
    cases ho
    refine ⟨h.calm, h.gathered, ?_, fun m hm => ?_⟩
    · simpa using room
    · rcases List.mem_append.mp hm with old | new
      · exact h.counted m old
      · exact List.mem_singleton.mp new ▸ hn
  · cases ho

theorem NoticeUnit.Sound.event (h : u.Sound) (now : Word) (i : SourceNo) : (u.event now i).Sound := by
  have counts : satInc (u.source i).count ≠ 0 := satInc_ne_zero _ (by decide)
  unfold NoticeUnit.event
  dsimp only
  split
  · split
    · exact (h.offer counts ‹_›).setSource i Source.sound_quiet
    · exact h.lose.setSource i (Source.sound_pending counts)
  · exact h.setSource i (Source.sound_pending counts)
  · exact h.setSource i (Source.sound_pending counts)

theorem NoticeUnit.Sound.unconditional (h : u.Sound) (now : Word) (kind : NoticeKind) (l : LaneId) :
    (u.unconditional now kind l).Sound := by
  unfold NoticeUnit.unconditional
  split
  · exact h.offer (by decide : (1 : BitVec 16) ≠ 0) ‹_›
  · exact h.lose

theorem NoticeUnit.Sound.rearm {x : NoticeUnit × RearmTally} (h : x.1.Sound) (now : Word) (i : SourceNo) :
    (NoticeUnit.rearm now x i).1.Sound := by
  unfold NoticeUnit.rearm
  dsimp only
  split
  · exact h
  · rename_i quiet
    exact h.setSource i ⟨fun _ => h.calm i (by simp [quiet]), nofun⟩
  · rename_i pending
    split
    · exact (h.offer (h.gathered i pending) ‹_›).setSource i Source.sound_quiet
    · exact h.lose

theorem NoticeUnit.Sound.rearmAll (h : u.Sound) (now : Word) (concerned : SourceNo → Bool) : (u.rearmAll now concerned).1.Sound := by
  have each (is : List SourceNo) (x : NoticeUnit × RearmTally) (hx : x.1.Sound) :
      (is.foldl (NoticeUnit.rearm now) x).1.Sound := by
    induction is generalizing x with
    | nil => exact hx
    | cons i is ih => exact ih _ (hx.rearm now i)
  exact each _ _ h

theorem NoticeUnit.Sound.afterBatch (h : u.Sound) : u.afterBatch.Sound :=
  ⟨h.calm, h.gathered, (by simp [NoticeUnit.afterBatch]; have := h.places; omega), fun n hn => h.counted n (List.mem_of_mem_drop hn)⟩

end

/-! ## Pool hold (R79, R80, R82, R85) -/

section
variable {p : Pool}

/-- The free count falls to the hold threshold or stays above it, or pool hold was asserted already. -/
theorem Pool.Sound.taken (h : p.Sound) (n : Nat) (hn : ¬(p.held = false ∧ p.free - n < p.holdThreshold)) :
    ({ p with free := p.free - n } : Pool).Sound where
  order := h.order
  range := h.range
  released r := Nat.le_of_not_lt fun low => hn ⟨r, low⟩
  asserted a := (Nat.sub_le _ _).trans (h.asserted a)

theorem Pool.Sound.hold (h : p.Sound) (n : Nat) (low : n < p.holdThreshold) (events : Word) :
    ({ p with free := n, held := true, holdEvents := events } : Pool).Sound where
  order := h.order
  range := h.range
  released := nofun
  asserted _ := (low.trans h.order).le

theorem Pool.Sound.freed (h : p.Sound) (n : Nat) :
    ({ p with free := p.free + n, held := p.held && decide (p.free + n ≤ p.releaseThreshold) } : Pool).Sound where
  order := h.order
  range := h.range
  released r := by
    rcases Bool.and_eq_false_iff.mp r with e | e
    · exact (h.released e).trans (Nat.le_add_right _ _)
    · exact (h.order.trans (Nat.lt_of_not_le (of_decide_eq_false e))).le
  asserted a := of_decide_eq_true (Bool.and_eq_true_iff.mp a).2

theorem Pool.Sound.reset (h : p.Sound) : p.reset.Sound where
  order := h.order
  range := h.range
  released _ := (h.order.le.trans h.range).trans (show 4095 ≤ 4096 by decide)
  asserted := nofun

end

/-! ## Both in the whole part -/

/-- The invariant of the Notice Unit and the Cell Pool, of the whole part. -/
def State.AlarmsSound (s : State) : Prop := s.notices.Sound ∧ s.pool.Sound

section
variable {s t : State}

theorem State.AlarmsSound.of_keeps (h : s.AlarmsSound) {fp : Footprint} (k : s.Keeps fp t) (hn : fp.notices = false)
    (hp : fp.pool = false) : t.AlarmsSound := by
  unfold State.AlarmsSound
  rw [k.notices hn, k.pool hp]
  exact h

theorem State.AlarmsSound.arbitrate (h : s.AlarmsSound) : s.arbitrate.AlarmsSound := h.of_keeps s.arbitrate_keeps rfl rfl

theorem State.AlarmsSound.raise (h : s.AlarmsSound) (i : SourceNo) : (s.raise i).AlarmsSound := ⟨h.1.event _ i, h.2⟩

theorem State.AlarmsSound.notify (h : s.AlarmsSound) (kind : NoticeKind) (l : LaneId) : (s.notify kind l).AlarmsSound :=
  ⟨h.1.unconditional _ kind l, h.2⟩

theorem State.AlarmsSound.allocate (h : s.AlarmsSound) {n : Nat} (ha : s.allocate n = some t) : t.AlarmsSound := by
  unfold State.allocate at ha
  split at ha
  · cases ha; exact h
  · split at ha
    · cases ha
    · dsimp only at ha
      split at ha
      · rename_i low
        cases ha
        have held : State.AlarmsSound { s with pool := { s.pool with
            free := s.pool.free - n, held := true, holdEvents := satInc s.pool.holdEvents } } := ⟨h.1, h.2.hold _ low.2 _⟩
        exact held.raise _
      · rename_i enough
        cases ha
        exact ⟨h.1, h.2.taken n enough⟩

theorem State.AlarmsSound.freeCells (h : s.AlarmsSound) (n : Nat) : (s.freeCells n).AlarmsSound := by
  unfold State.freeCells
  split
  · exact h
  · exact ⟨h.1, h.2.freed n⟩

theorem State.AlarmsSound.placeInto (h : s.AlarmsSound) (l : LaneId) (b : Bundle) (q : PlacementRequest) :
    (s.placeInto l b q).1.AlarmsSound := by
  unfold State.placeInto
  dsimp only
  split
  · exact h.raise _
  · rename_i granted
    have taken := h.allocate granted
    exact taken

theorem State.AlarmsSound.place (h : s.AlarmsSound) (l : LaneId) (q : PlacementRequest) : (s.place l q).1.AlarmsSound := by
  have set {s : State} (h : s.AlarmsSound) (x : Lane) : (s.setLane l x).AlarmsSound := h
  have full {s : State} (h : s.AlarmsSound) : (s.answerLaneFull l).1.AlarmsSound := (set h _).raise _
  unfold State.place
  dsimp only
  split
  · exact h
  · exact h
  all_goals
    split
    · exact full (set h _)
    · split
      · exact (set (set h _) _).placeInto l _ q
      · exact full (set (set h _) _)

theorem State.AlarmsSound.discard (h : s.AlarmsSound) (l : LaneId) (b : Bundle) : (s.discard l b).AlarmsSound := by
  unfold State.discard
  split
  · split
    · exact h
    · exact h.freeCells _
  · exact h.freeCells _

theorem State.AlarmsSound.discards (h : s.AlarmsSound) (l : LaneId) (bs : List Bundle) :
    (bs.foldl (State.discard l) s).AlarmsSound := by
  induction bs generalizing s with
  | nil => exact h
  | cons b bs ih => exact ih (h.discard l b)

theorem State.AlarmsSound.disableLane (h : s.AlarmsSound) (l : LaneId) : (s.disableLane l).AlarmsSound := h.discards l _

theorem State.AlarmsSound.disableLanes (h : s.AlarmsSound) : s.disableLanes.AlarmsSound := by
  have each (ls : List LaneId) (t : State) (ht : t.AlarmsSound) : (ls.foldl State.disableLane t).AlarmsSound := by
    induction ls generalizing t with
    | nil => exact ht
    | cons l ls ih => exact ih _ (ht.disableLane l)
  exact each _ s h

theorem State.AlarmsSound.drainCheck (h : s.AlarmsSound) (l : LaneId) : (s.drainCheck l).AlarmsSound := by
  unfold State.drainCheck
  split
  · exact (h.disableLane l).notify _ _
  · exact h

theorem State.AlarmsSound.refuseUpdate (h : s.AlarmsSound) : s.refuseUpdate.AlarmsSound :=
  State.AlarmsSound.raise (s := s.countTrunk _) h _

theorem State.AlarmsSound.applyUpdate (h : s.AlarmsSound) (u : LaneUpdate) : (s.applyUpdate u).AlarmsSound := by
  unfold State.applyUpdate
  dsimp only
  split
  · exact h.refuseUpdate
  · have acked : (s.applyAck u.lane u.ack).AlarmsSound := by
      unfold State.applyAck
      dsimp only
      split
      · exact h
      · exact h.discards _ _
    have applied := (acked.of_keeps (State.applyGrant_keeps _ u.lane u.grant) rfl rfl).of_keeps
      (State.applyResend_keeps _ u.lane u.resendFrom) rfl rfl
    split
    · exact applied.refuseUpdate.drainCheck _
    · exact applied.drainCheck _

theorem State.AlarmsSound.takeUpdate (h : s.AlarmsSound) : s.takeUpdate.AlarmsSound := by
  unfold State.takeUpdate
  split
  · exact h
  · exact h
  · have rest (x : Trunk) : ({ s with trunk := x } : State).AlarmsSound := h
    dsimp only
    split
    · exact h
    · split
      · exact h
      · exact ((rest _).applyUpdate _).arbitrate
      · exact ((rest _).applyUpdate _).arbitrate
      · exact ((rest _).applyUpdate _).arbitrate

theorem State.AlarmsSound.clearWire (h : s.AlarmsSound) : s.clearWire.AlarmsSound := by
  unfold State.clearWire
  dsimp only
  split
  · exact State.AlarmsSound.freeCells (s := { s with trunk := { s.trunk with outbound := none } }) h _
  · exact h

/-! ### The events -/

theorem State.AlarmsSound.fieldByte (h : s.AlarmsSound) (p : PortId) (b : Byte) : (s.fieldByte p b).AlarmsSound := by
  unfold State.fieldByte
  dsimp only
  split
  · split
    · exact h
    · split
      · exact (State.AlarmsSound.raise (s := s.setPort p _) h _).arbitrate
      · exact h
  · exact h

theorem State.AlarmsSound.badFrameEnds (h : s.AlarmsSound) (p : PortId) (f : PortCounters → PortCounters) :
    (s.badFrameEnds p f).AlarmsSound := by
  unfold State.badFrameEnds
  dsimp only
  split
  · exact (State.AlarmsSound.raise (s := s.setPort p _) h _).arbitrate
  · exact h

theorem State.AlarmsSound.fieldEnd (h : s.AlarmsSound) (p : PortId) : (s.fieldEnd p).AlarmsSound := by
  unfold State.fieldEnd
  dsimp only
  split
  · exact h
  · exact h.badFrameEnds p _
  · split
    · exact h.badFrameEnds p _
    · split
      · exact h.badFrameEnds p _
      · split <;> exact h
  · exact h
  · exact h
  · exact h

theorem State.AlarmsSound.searchStage (h : s.AlarmsSound) : s.searchStage.AlarmsSound := by
  unfold State.searchStage
  split
  · rename_i f _
    split
    · split
      · exact ((State.AlarmsSound.raise (s := s.countPort f.port _) h _).of_keeps (State.recordEnds_keeps _ _) rfl rfl).arbitrate
      · dsimp only
        split
        · exact State.AlarmsSound.of_keeps (s := s.countPort f.port _) h (State.recordEnds_keeps _ _) rfl rfl
        · split <;> exact h
    · exact h
  · exact h

theorem State.AlarmsSound.learnStage (h : s.AlarmsSound) : s.learnStage.AlarmsSound := by
  have table (x : StreamTable) : ({ s with streams := x } : State).AlarmsSound := h
  unfold State.learnStage
  split
  · split
    · dsimp only
      split
      · exact (table _).of_keeps (State.judgeHit_keeps _ _ _ _) rfl rfl
      · exact (table _).of_keeps (State.judgeHit_keeps _ _ _ _) rfl rfl
      · exact (((table _).raise _).of_keeps (State.setStage_keeps _ _ _) rfl rfl).arbitrate
    · exact h
  · exact h

theorem State.AlarmsSound.placeStage (h : s.AlarmsSound) : s.placeStage.AlarmsSound := by
  unfold State.placeStage
  split
  · split
    · exact ((h.place _ _).of_keeps (State.routeEnds_keeps _ _ _ _) rfl rfl).arbitrate
    · exact h
  · exact h

theorem State.AlarmsSound.retransmitExpiry (h : s.AlarmsSound) (l : LaneId) : (s.retransmitExpiry l).AlarmsSound := by
  unfold State.retransmitExpiry
  dsimp only
  split
  · split
    · exact (State.AlarmsSound.notify (s := s.setLane l _) h _ _).arbitrate
    · exact State.AlarmsSound.arbitrate (s := s.setLane l _) h
  · exact h

theorem State.AlarmsSound.loseLock (h : s.AlarmsSound) : s.loseLock.AlarmsSound :=
  s.loseLock_cases State.AlarmsSound (fun _ => h) (fun _ => h.clearWire) fun _ _ _ _ => h.clearWire

theorem State.AlarmsSound.dispatch (h : s.AlarmsSound) (x : InboundContent) : (s.dispatch x).AlarmsSound := by
  have one (t : State) (ht : t.AlarmsSound) (u : RawUpdate) : (t.dispatchUpdate u).AlarmsSound := by
    unfold State.dispatchUpdate
    split
    · exact ht
    · exact ht.refuseUpdate
  have each (us : List RawUpdate) (t : State) (ht : t.AlarmsSound) : (us.foldl State.dispatchUpdate t).AlarmsSound := by
    induction us generalizing t with
    | nil => exact ht
    | cons u us ih => exact ih _ (one t ht u)
  unfold State.dispatch
  split
  · exact each _ _ h
  · exact h

theorem State.AlarmsSound.inboundEnd (h : s.AlarmsSound) : s.inboundEnd.AlarmsSound := by
  have judged (t : State) (ht : t.AlarmsSound) (bytes : List Byte) : (t.judgeInbound bytes).AlarmsSound := by
    unfold State.judgeInbound
    split
    · exact ht
    · split
      · exact ht
      · split
        · exact ht
        · split
          · exact ht
          · split
            · exact (State.AlarmsSound.dispatch (s := t.countTrunk _) ht _).arbitrate
            · exact ht
  unfold State.inboundEnd
  dsimp only
  split
  · exact judged { s with trunk := { s.trunk with inbound := none } } h _
  · exact h
  · exact h

theorem State.AlarmsSound.takeBatchRequest (h : s.AlarmsSound) : s.takeBatchRequest.AlarmsSound := by
  unfold State.takeBatchRequest
  split
  · dsimp only
    split
    · exact ⟨h.1.afterBatch, h.2⟩
    · exact State.AlarmsSound.arbitrate (s := { s with trunk := { s.trunk with request := .none } }) h
  · exact h
  · exact h

theorem State.AlarmsSound.frameEnds (h : s.AlarmsSound) : s.clearWire.countFrameOut.arbitrate.AlarmsSound :=
  State.AlarmsSound.arbitrate (s := s.clearWire.countFrameOut) h.clearWire

theorem State.AlarmsSound.cutFrameEnds (h : s.AlarmsSound) : s.cutFrameEnds.AlarmsSound := by
  unfold State.cutFrameEnds
  split
  · exact State.AlarmsSound.arbitrate (s := { s.clearWire with mu := s.mu.cutEnded }) h.clearWire
  · exact h

theorem State.AlarmsSound.phase4 (h : s.AlarmsSound) : s.phase4.AlarmsSound := by
  unfold State.phase4
  split
  · exact ⟨h.disableLanes.1, h.disableLanes.2.reset⟩
  · exact h

/-! ### The commands -/

theorem State.AlarmsSound.runCommand (h : s.AlarmsSound) {α : Type} {code : Byte} {parse : List Byte → Option α}
    {need : α → SessionNeed} {effect : State → Command → α → State}
    (taken : ∀ (s : State) c a, s.AlarmsSound → (effect s c a).AlarmsSound) : (s.runCommand code parse need effect).AlarmsSound :=
  State.runCommand_cases s code parse need effect State.AlarmsSound h (fun _ _ _ _ _ => h) fun _ _ _ _ _ _ _ _ => taken _ _ _ h

theorem State.AlarmsSound.setThresholds (h : s.AlarmsSound) {a : PoolSetParams} (ok : a.ok = true) :
    (s.setThresholds a).AlarmsSound := by
  obtain ⟨-, range, order⟩ := of_decide_eq_true ok
  unfold State.setThresholds
  dsimp only
  split
  · rename_i held
    split
    · rename_i free
      exact ⟨h.1, order, range, fun _ => (order.trans free).le, nofun⟩
    · rename_i free
      exact ⟨h.1, order, range, fun r => absurd r (by simp [held]), fun _ => Nat.le_of_not_lt free⟩
  · rename_i open_
    split
    · rename_i low
      exact State.AlarmsSound.raise (s := { s with pool := { s.pool with
        holdThreshold := a.hold, releaseThreshold := a.release, held := true, holdEvents := satInc s.pool.holdEvents } })
        ⟨h.1, order, range, nofun, fun _ => (low.trans order).le⟩ _
    · rename_i enough
      exact ⟨h.1, order, range, fun _ => Nat.le_of_not_lt enough, fun held => absurd held open_⟩

theorem State.AlarmsSound.poolSet (h : s.AlarmsSound) (c : Command) (a : PoolSetParams) : (s.poolSet c a).AlarmsSound := by
  unfold State.poolSet
  split
  · exact State.AlarmsSound.arbitrate (s := (s.setThresholds a).finish c _ _) (h.setThresholds ‹_›)
  · exact h

theorem State.AlarmsSound.onCommandLane (h : s.AlarmsSound) (c : Command) (lane : Byte) (f : LaneId → State)
    (hf : ∀ l, (f l).AlarmsSound) : (s.onCommandLane c lane f).AlarmsSound := by
  unfold State.onCommandLane
  split
  · exact h
  · exact hf _

theorem State.AlarmsSound.laneStop (h : s.AlarmsSound) (c : Command) (lane : Byte) : (s.laneStop c lane).AlarmsSound := by
  refine h.onCommandLane c lane _ fun l => ?_
  have stopped : (s.beginDrain l).AlarmsSound := State.AlarmsSound.drainCheck (s := s.setLane l _) h l
  dsimp only
  split
  · exact h
  · exact h
  · exact State.AlarmsSound.arbitrate (s := (s.beginDrain l).finish c _ _) stopped
  · split <;> exact h

theorem State.AlarmsSound.laneReset (h : s.AlarmsSound) (c : Command) (lane : Byte) : (s.laneReset c lane).AlarmsSound := by
  refine h.onCommandLane c lane _ fun l => ?_
  have reset : (s.resetLane l).AlarmsSound := by
    unfold State.resetLane
    split
    · exact (h.of_keeps s.cutFrame_keeps rfl rfl).disableLane l
    · exact h.disableLane l
  split
  · exact h
  · exact reset
  · exact reset
  · exact reset

theorem State.AlarmsSound.openSession (h : s.AlarmsSound) (c : Command) (a : Unit) : (s.openSession c a).AlarmsSound := by
  unfold State.openSession
  split
  · have opened : (s.takeEpoch c.epoch).AlarmsSound := by
      have rearmed := h.1.rearmAll s.deviceTime fun _ => true
      unfold State.takeEpoch
      generalize (s.notices.rearmAll s.deviceTime fun _ => true).1 = u at rearmed ⊢
      exact ⟨rearmed, h.2⟩
    exact (opened.of_keeps (State.finish_keeps _ _ _ _) rfl rfl).arbitrate
  · exact h

theorem State.AlarmsSound.noticeRearm (h : s.AlarmsSound) (c : Command) (a : NoticeRearmParams) : (s.noticeRearm c a).AlarmsSound := by
  unfold State.noticeRearm
  split
  · exact h
  · rename_i concerned _
    exact State.AlarmsSound.arbitrate
      (s := ({ s with notices := (s.notices.rearmAll s.deviceTime concerned).1 } : State).finish c _ _) ⟨h.1.rearmAll _ _, h.2⟩

theorem State.AlarmsSound.clearOwner (h : s.AlarmsSound) (o : CounterOwner) : (s.clearOwner o).AlarmsSound := by
  cases o with
  | notices => exact ⟨⟨h.1.calm, h.1.gathered, h.1.places, h.1.counted⟩, h.2⟩
  | pool => exact ⟨h.1, h.2.order, h.2.range, h.2.released, h.2.asserted⟩
  | _ => exact h

theorem State.AlarmsSound.readOwner (h : s.AlarmsSound) (c : Command) (clear : Bool) (left : List CounterOwner)
    (result : List Byte) : (s.readOwner c clear left result).AlarmsSound :=
  s.readOwner_cases _ c clear left result (fun _ _ h => h) h h.clearOwner

theorem State.AlarmsSound.stepReadCounters (h : s.AlarmsSound) : s.stepReadCounters.AlarmsSound := by
  unfold State.stepReadCounters
  split
  · exact h.readOwner _ _ _ _
  · refine h.runCommand fun s c a h => ?_
    unfold State.readCounters
    split
    · exact h.readOwner _ _ _ _
    · exact h

theorem State.AlarmsSound.exec {c : Instr} (hs : s.AlarmsSound) (h : exec c s = .next t) (hc : ofPins c = false) :
    t.AlarmsSound := by
  cases c with
  | powerOnReset | resetRelease | lineSignalGained | lineSignalLost => cases hc
  | fieldByteArrival p b => rw [exec_fieldByteArrival] at h; exact onPort_keeps h hs fun q => hs.fieldByte q b
  | fieldEndDelimiter p => rw [exec_fieldEndDelimiter] at h; exact onPort_keeps h hs hs.fieldEnd
  | ruleSearch => rw [exec_ruleSearch] at h; exact running_keeps h hs hs.searchStage
  | learnInsert => rw [exec_learnInsert] at h; exact running_keeps h hs hs.learnStage
  | placement => rw [exec_placement] at h; exact running_keeps h hs hs.placeStage
  | poolSet => rw [exec_poolSet] at h; exact running_keeps h hs (hs.runCommand fun _ c a h => h.poolSet c a)
  | laneStop => rw [exec_laneStop] at h; exact running_keeps h hs (hs.runCommand fun _ c a h => h.laneStop c a)
  | laneReset => rw [exec_laneReset] at h; exact running_keeps h hs (hs.runCommand fun _ c a h => h.laneReset c a)
  | laneUpdate => rw [exec_laneUpdate] at h; exact running_keeps h hs hs.takeUpdate
  | retransmitTimerExpiry l => rw [exec_retransmitTimerExpiry] at h; exact onLane_keeps h hs hs.retransmitExpiry
  | linkDown => rw [exec_linkDown] at h; exact running_keeps h hs hs.loseLock
  | trunkEndDelimiter => rw [exec_trunkEndDelimiter] at h; exact running_keeps h hs hs.inboundEnd
  | noticeBatchRequest => rw [exec_noticeBatchRequest] at h; exact running_keeps h hs hs.takeBatchRequest
  | noticeRearm => rw [exec_noticeRearm] at h; exact running_keeps h hs (hs.runCommand fun _ c a h => h.noticeRearm c a)
  | outboundFrameEnd =>
    rw [exec_outboundFrameEnd] at h
    refine running_keeps h hs ?_
    unfold State.frameOutEnds
    split
    · exact hs.frameEnds
    · exact hs.frameEnds
    · exact hs
    · exact hs
  | bundleFrameEnd =>
    rw [exec_bundleFrameEnd] at h
    refine running_keeps h hs ?_
    unfold State.bundleFrameEnds
    split
    · exact hs.frameEnds
    · exact hs
  | cutFrameEnd => rw [exec_cutFrameEnd] at h; exact running_keeps h hs hs.cutFrameEnds
  | openSession => rw [exec_openSession] at h; exact running_keeps h hs (hs.runCommand fun _ c a h => h.openSession c a)
  | resetPhase4 => rw [exec_resetPhase4] at h; exact running_keeps h hs hs.phase4
  | readCounters => rw [exec_readCounters] at h; exact running_keeps h hs hs.stepReadCounters
  | _ => exact hs.of_keeps (exec_keepsFootprint h rfl) rfl rfl

end

/-- Settles O56: an event is queued with a count, and the two thresholds are judged where the free count changes. -/
theorem everyStepKeepsNoticesAndPoolHold : Obligations.EveryStepKeepsNoticesAndPoolHold := by
  intro s t hd notices pool h
  refine step_keeps (P := State.AlarmsSound) (fun _ _ h => h) (fun _ => ⟨NoticeUnit.sound_powerOn, Pool.sound_powerOn⟩)
    (fun _ _ h => h) (fun _ _ _ h => h) (fun s h => ?_) (fun c s t hs h hc => hs.exec h hc) hd ⟨notices, pool⟩ h
  unfold State.tick
  split <;> exact h

end Sys2Proof.Machine

/-! Proof of O55: the link, the session, and the queues of commands and responses. -/

namespace Sys2Proof.Machine

/-! ## What leaves the link as it is -/

/-- The link, the frame inbound, the responses, the epochs and the queued commands are as they were; a free wire is free, and
a wire without a bundle frame has none. -/
structure State.SameLink (s t : State) : Prop where
  linkUp : t.trunk.linkUp = s.trunk.linkUp
  inbound : t.trunk.inbound = s.trunk.inbound
  outbound : s.trunk.outbound = none → t.trunk.outbound = none
  responses : t.trunk.responses = s.trunk.responses
  epochs : s.mu.SameEpochs t.mu
  queue : t.mu.queue = s.mu.queue
  bundle : s.trunk.bundleOnWire = false → t.trunk.bundleOnWire = false

section
variable {s t u : State}

theorem State.SameLink.refl (s : State) : s.SameLink s := ⟨rfl, rfl, id, rfl, .refl _, rfl, id⟩

theorem State.SameLink.trans (h : s.SameLink t) (h' : t.SameLink u) : s.SameLink u where
  linkUp := h'.linkUp.trans h.linkUp
  inbound := h'.inbound.trans h.inbound
  outbound e := h'.outbound (h.outbound e)
  responses := h'.responses.trans h.responses
  epochs := ⟨h'.epochs.1.trans h.epochs.1, h'.epochs.2.trans h.epochs.2⟩
  queue := h'.queue.trans h.queue
  bundle e := h'.bundle (h.bundle e)

theorem State.SameLink.of_eq (ht : t.trunk = s.trunk) (hm : t.mu = s.mu) : s.SameLink t := by
  refine ⟨by rw [ht], by rw [ht], by rw [ht]; exact id, by rw [ht], ?_, by rw [hm], by rw [ht]; exact id⟩
  rw [hm]
  exact .refl _

theorem State.Keeps.sameLink {fp : Footprint} (k : s.Keeps fp t) (ht : fp.trunk = false) (hm : fp.mu = false) : s.SameLink t :=
  .of_eq (k.trunk ht) (k.mu hm)

/-- The progress of the command in execution is not part of the link. -/
theorem State.SameLink.of_mu (s : State) (m : Mu) (epochs : s.mu.SameEpochs m) (queue : m.queue = s.mu.queue) :
    s.SameLink { s with mu := m } := ⟨rfl, rfl, id, rfl, epochs, queue, id⟩

theorem State.finish_sameLink (s : State) (c : Command) (st : Status) (bytes : List Byte) : s.SameLink (s.finish c st bytes) :=
  .of_mu s _ ⟨rfl, rfl⟩ rfl

theorem Mu.abandonDone_queue (m : Mu) : m.abandonDone.queue = m.queue := by
  unfold Mu.abandonDone
  split <;> rfl

theorem Mu.cutEnded_queue (m : Mu) : m.cutEnded.queue = m.queue := by
  unfold Mu.cutEnded
  split <;> rfl

theorem State.discard_sameLink (s : State) (l : LaneId) (b : Bundle) : s.SameLink (s.discard l b) := by
  unfold State.discard
  split
  · rename_i wire
    split
    · exact ⟨rfl, rfl, fun e => absurd e (by simp [wire]), rfl, .refl _, rfl, fun e => absurd e (by simp [Trunk.bundleOnWire, wire])⟩
    · exact (s.freeCells_keeps _).sameLink rfl rfl
  · exact (s.freeCells_keeps _).sameLink rfl rfl

theorem State.discards_sameLink (s : State) (l : LaneId) (bs : List Bundle) : s.SameLink (bs.foldl (State.discard l) s) := by
  induction bs generalizing s with
  | nil => exact .refl s
  | cons b bs ih => exact (s.discard_sameLink l b).trans (ih _)

theorem State.setLane_sameLink (s : State) (l : LaneId) (x : Lane) : s.SameLink (s.setLane l x) := .of_eq rfl rfl

theorem State.disableLane_sameLink (s : State) (l : LaneId) : s.SameLink (s.disableLane l) :=
  (s.discards_sameLink l _).trans (State.setLane_sameLink _ l _)

theorem State.disableLanes_sameLink (s : State) : s.SameLink s.disableLanes := by
  have each (ls : List LaneId) (t : State) : t.SameLink (ls.foldl State.disableLane t) := by
    induction ls generalizing t with
    | nil => exact .refl t
    | cons l ls ih => exact (t.disableLane_sameLink l).trans (ih _)
  exact each _ s

theorem State.countTrunk_sameLink (s : State) (f : TrunkCounters → TrunkCounters) : s.SameLink (s.countTrunk f) :=
  ⟨rfl, rfl, id, rfl, .refl _, rfl, id⟩

theorem State.raise_sameLink (s : State) (i : SourceNo) : s.SameLink (s.raise i) := .of_eq rfl rfl

theorem State.drainCheck_sameLink (s : State) (l : LaneId) : s.SameLink (s.drainCheck l) := by
  unfold State.drainCheck
  split
  · exact (s.disableLane_sameLink l).trans (.of_eq rfl rfl)
  · exact .refl s

theorem State.refuseUpdate_sameLink (s : State) : s.SameLink s.refuseUpdate :=
  (s.countTrunk_sameLink _).trans (State.raise_sameLink _ _)

theorem State.applyUpdate_sameLink (s : State) (u : LaneUpdate) : s.SameLink (s.applyUpdate u) := by
  unfold State.applyUpdate
  dsimp only
  split
  · exact s.refuseUpdate_sameLink
  · have acked : s.SameLink (s.applyAck u.lane u.ack) := by
      unfold State.applyAck
      dsimp only
      split
      · exact .refl s
      · exact (s.discards_sameLink _ _).trans (State.setLane_sameLink _ _ _)
    have granted : (s.applyAck u.lane u.ack).SameLink ((s.applyAck u.lane u.ack).applyGrant u.lane u.grant) := by
      unfold State.applyGrant
      dsimp only
      split
      · exact (State.setLane_sameLink _ _ _).trans (State.countTrunk_sameLink _ _)
      · exact State.setLane_sameLink _ _ _
      · exact State.setLane_sameLink _ _ _
    have applied := (acked.trans granted).trans ((State.applyResend_keeps _ u.lane u.resendFrom).sameLink rfl rfl)
    split
    · exact (applied.trans (State.refuseUpdate_sameLink _)).trans (State.drainCheck_sameLink _ _)
    · exact applied.trans (State.drainCheck_sameLink _ _)

theorem State.clearWire_sameLink (s : State) : s.SameLink s.clearWire := by
  have freed : s.SameLink { s with trunk := { s.trunk with outbound := none } } := ⟨rfl, rfl, fun _ => rfl, rfl, .refl _, rfl, fun _ => rfl⟩
  unfold State.clearWire
  dsimp only
  split
  · exact freed.trans ((State.freeCells_keeps _ _).sameLink rfl rfl)
  · exact freed

theorem State.clearWire_outbound (s : State) : s.clearWire.trunk.outbound = none := by rw [s.clearWire_trunk]

theorem State.cutFrame_sameLink (s : State) : s.SameLink s.cutFrame := by
  unfold State.cutFrame
  split
  · rename_i wire
    exact ⟨rfl, rfl, fun e => absurd e (by simp [wire]), rfl, .refl _, rfl, fun e => absurd e (by simp [Trunk.bundleOnWire, wire])⟩
  · exact .refl s

theorem State.recordEnds_sameLink (s : State) (f : FrameInProgress) : s.SameLink (s.recordEnds f) := by
  unfold State.recordEnds
  split
  · unfold State.endFrame
    dsimp only
    split
    · exact ⟨rfl, rfl, id, rfl, Mu.abandonDone_sameEpochs _, Mu.abandonDone_queue _, id⟩
    · exact .of_eq rfl rfl
  · exact .of_eq rfl rfl

theorem State.routeEnds_sameLink (s : State) (f : FrameInProgress) (route : Route) (o : UpdateOutcome) :
    s.SameLink (s.routeEnds f route o) := by
  unfold State.routeEnds
  split
  · exact .of_eq rfl rfl
  · exact s.recordEnds_sameLink f

theorem State.dispatch_sameLink (s : State) (x : InboundContent) : s.SameLink (s.dispatch x) := by
  have one (t : State) (u : RawUpdate) : t.SameLink (t.dispatchUpdate u) := by
    unfold State.dispatchUpdate
    split
    · exact ⟨rfl, rfl, id, rfl, .refl _, rfl, id⟩
    · exact t.refuseUpdate_sameLink
  have each (us : List RawUpdate) (t : State) : t.SameLink (us.foldl State.dispatchUpdate t) := by
    induction us generalizing t with
    | nil => exact .refl t
    | cons u us ih => exact (one t u).trans (ih _)
  unfold State.dispatch
  split
  · exact (s.countTrunk_sameLink _).trans (each _ _)
  · exact ⟨rfl, rfl, id, rfl, .refl _, rfl, id⟩

theorem State.clearOwner_sameLink (s : State) (o : CounterOwner) : s.SameLink (s.clearOwner o) := by
  cases o with
  | trunk => exact ⟨rfl, rfl, id, rfl, .refl _, rfl, id⟩
  | mu => exact .of_mu s _ ⟨rfl, rfl⟩ rfl
  | _ => exact .of_eq rfl rfl

/-! ## What the invariant gives and takes -/

theorem State.LinkSound.same (h : s.LinkSound) (k : s.SameLink t) : t.LinkSound where
  down e := by
    obtain ⟨epoch, queue, responses, inbound, outbound⟩ := h.down (k.linkUp.symm.trans e)
    exact ⟨k.epochs.1.trans epoch, k.queue.trans queue, k.responses.trans responses, k.inbound.trans inbound, k.outbound outbound⟩
  epoch e he := by
    rw [k.epochs.2]
    exact h.epoch e (k.epochs.1.symm.trans he)
  commands := by rw [k.queue]; exact h.commands
  responses := by rw [k.responses]; exact h.responses

/-- With the link UP, the epochs and the two queues are all there is. -/
theorem State.LinkSound.of_up (h : s.LinkSound) (up : t.trunk.linkUp = true) (epochs : s.mu.SameEpochs t.mu)
    (commands : t.mu.queue.length ≤ 8) (responses : t.trunk.responses.length ≤ 8) : t.LinkSound where
  down e := absurd (up.symm.trans e) (by decide)
  epoch e he := by
    rw [epochs.2]
    exact h.epoch e (epochs.1.symm.trans he)
  commands := commands
  responses := responses

theorem State.LinkSound.up_of_session (h : s.LinkSound) (open_ : s.sessionOpen = true) : s.trunk.linkUp = true := by
  cases up : s.trunk.linkUp with
  | true => rfl
  | false => simp [State.sessionOpen, (h.down up).1] at open_

theorem State.LinkSound.up_of_command (h : s.LinkSound) {c : Command} {rest : List Command} (queued : s.mu.queue = c :: rest) :
    s.trunk.linkUp = true := by
  cases up : s.trunk.linkUp with
  | true => rfl
  | false => exact absurd (queued.symm.trans (h.down up).2.1) (by simp)

/-- A command leaves the queue. -/
theorem State.LinkSound.begun (h : s.LinkSound) {c : Command} {rest : List Command} (queued : s.mu.queue = c :: rest) :
    ({ s with mu := { s.mu with queue := rest } } : State).LinkSound := by
  refine h.of_up (h.up_of_command queued) ⟨rfl, rfl⟩ ?_ h.responses
  have := h.commands
  rw [queued, List.length_cons] at this
  exact Nat.le_of_succ_le this

theorem Trunk.placeResponse_length (t : Trunk) (r : Response) : (t.placeResponse r).responses.length ≤ t.responses.length + 1 := by
  unfold Trunk.placeResponse
  split
  · simp
  · exact Nat.le_succ _

theorem Trunk.placeResponse_down {t : Trunk} (down : t.linkUp = false) (r : Response) : t.placeResponse r = t := by
  simp [Trunk.placeResponse, down]

/-- A response is placed where there is room for it. -/
theorem State.LinkSound.placed (h : s.LinkSound) (r : Response) (m : Mu) (epochs : s.mu.SameEpochs m) (queue : m.queue = s.mu.queue)
    (room : s.trunk.responses.length < 8) : ({ s with trunk := s.trunk.placeResponse r, mu := m } : State).LinkSound := by
  cases up : s.trunk.linkUp with
  | true =>
    refine h.of_up ((s.trunk.placeResponse_linkUp r).trans up) epochs (by rw [queue]; exact h.commands) ?_
    exact (s.trunk.placeResponse_length r).trans room
  | false =>
    rw [Trunk.placeResponse_down up]
    exact h.same (.of_mu s m epochs queue)

theorem State.LinkSound.startResponse (h : s.LinkSound) (up : s.trunk.linkUp = true) {r : Response} {rest : List Response}
    (head : s.trunk.responses = r :: rest) : (s.startResponse r rest).LinkSound := by
  have room : rest.length < 8 := by
    have := h.responses
    rw [head, List.length_cons] at this
    exact this
  have started : ({ s with trunk := { s.trunk with
      responses := rest, outbound := some (.response r (r.frame s.trunk.unit)) } } : State).LinkSound :=
    h.of_up up ⟨rfl, rfl⟩ h.commands room.le
  unfold State.startResponse
  dsimp only
  split
  · exact started
  · split
    · exact started.placed _ _ ⟨rfl, rfl⟩ rfl room
    · exact started

theorem State.LinkSound.arbitrate (h : s.LinkSound) : s.arbitrate.LinkSound := by
  have requested (x : ArbiterRequest) : s.SameLink { s with trunk := { s.trunk with request := x } } :=
    ⟨rfl, rfl, id, rfl, .refl _, rfl, id⟩
  unfold State.arbitrate
  split
  · rename_i free
    split
    · exact h.startResponse (by simp only [Trunk.mayChoose, Bool.and_eq_true] at free; exact free.1.2) ‹_›
    · split
      · exact h.same (requested _)
      · split
        · exact h
        · split
          · exact h.same (requested _)
          · exact h
  · exact h

/-! ## The events -/

theorem State.LinkSound.raised (h : s.LinkSound) (i : SourceNo) : (s.raise i).arbitrate.LinkSound :=
  (h.same (s.raise_sameLink i)).arbitrate

theorem State.LinkSound.setPort (h : s.LinkSound) (p : PortId) (x : Port) : (s.setPort p x).LinkSound := h.same (.of_eq rfl rfl)

theorem State.LinkSound.setLane (h : s.LinkSound) (l : LaneId) (x : Lane) : (s.setLane l x).LinkSound :=
  h.same (s.setLane_sameLink l x)

theorem State.LinkSound.fieldByte (h : s.LinkSound) (p : PortId) (b : Byte) : (s.fieldByte p b).LinkSound := by
  unfold State.fieldByte
  dsimp only
  split
  · split
    · exact h.setPort p _
    · split
      · exact (h.setPort p _).raised _
      · exact h.setPort p _
  · exact h

theorem State.LinkSound.fieldEnd (h : s.LinkSound) (p : PortId) : (s.fieldEnd p).LinkSound := by
  have bad (f : PortCounters → PortCounters) : (s.badFrameEnds p f).LinkSound := by
    unfold State.badFrameEnds
    dsimp only
    split
    · exact (h.setPort p _).raised _
    · exact h.setPort p _
  unfold State.fieldEnd
  dsimp only
  split
  · exact h
  · exact bad _
  · split
    · exact bad _
    · split
      · exact bad _
      · split <;> exact h.setPort p _
  · exact h.setPort p _
  · exact h.setPort p _
  · exact h.setPort p _

theorem State.LinkSound.searchStage (h : s.LinkSound) : s.searchStage.LinkSound := by
  have counted (p : PortId) (f : PortCounters → PortCounters) : (s.countPort p f).LinkSound := h.setPort p _
  unfold State.searchStage
  split
  · split
    · split
      · exact (((counted _ _).same (State.raise_sameLink _ _)).same (State.recordEnds_sameLink _ _)).arbitrate
      · dsimp only
        split
        · exact (counted _ _).same (State.recordEnds_sameLink _ _)
        · split <;> exact h.same (.of_eq rfl rfl)
    · exact h
  · exact h

theorem State.LinkSound.learnStage (h : s.LinkSound) : s.learnStage.LinkSound := by
  have table (x : StreamTable) : ({ s with streams := x } : State).LinkSound := h.same (.of_eq rfl rfl)
  unfold State.learnStage
  split
  · split
    · dsimp only
      split
      · exact (table _).same ((State.judgeHit_keeps _ _ _ _).sameLink rfl rfl)
      · exact (table _).same ((State.judgeHit_keeps _ _ _ _).sameLink rfl rfl)
      · exact (((table _).same (State.raise_sameLink _ _)).same ((State.setStage_keeps _ _ _).sameLink rfl rfl)).arbitrate
    · exact h
  · exact h

theorem State.LinkSound.resolveStage (h : s.LinkSound) : s.resolveStage.LinkSound := by
  have counted (x : Classifier) : ({ s with classifier := x } : State).LinkSound := h.same (.of_eq rfl rfl)
  unfold State.resolveStage
  split
  · split
    · split
      · exact h.same (.of_eq rfl rfl)
      · exact (counted _).same (State.routeEnds_sameLink _ _ _ _)
      · exact (counted _).same (State.routeEnds_sameLink _ _ _ _)
    · exact h
  · exact h

theorem State.LinkSound.placeStage (h : s.LinkSound) : s.placeStage.LinkSound := by
  unfold State.placeStage
  split
  · split
    · exact ((h.same ((s.place_keeps _ _).sameLink rfl rfl)).same (State.routeEnds_sameLink _ _ _ _)).arbitrate
    · exact h
  · exact h

theorem State.LinkSound.updateStage (h : s.LinkSound) : s.updateStage.LinkSound := by
  have table (x : StreamTable) : ({ s with streams := x } : State).LinkSound := h.same (.of_eq rfl rfl)
  unfold State.updateStage
  split
  · split
    · exact (table _).same (State.recordEnds_sameLink _ _)
    · exact h
  · exact h

theorem State.LinkSound.takeHandoff (h : s.LinkSound) (l : LaneId) :
    (if (s.lane l).offered.isSome then (s.setLane l ((s.lane l).settle l)).arbitrate else s).LinkSound := by
  split
  · exact (h.setLane l _).arbitrate
  · exact h

theorem State.LinkSound.retransmitExpiry (h : s.LinkSound) (l : LaneId) : (s.retransmitExpiry l).LinkSound := by
  unfold State.retransmitExpiry
  dsimp only
  split
  · split
    · exact ((h.setLane l _).same ((State.notify_keeps _ _ _).sameLink rfl rfl)).arbitrate
    · exact (h.setLane l _).arbitrate
  · exact h

/-- A change of what the trunk has handed on, requested or counted. -/
theorem State.LinkSound.ofTrunk (h : s.LinkSound) (handed : List Handover) (request : ArbiterRequest) (counters : TrunkCounters)
    (served : LaneId) : ({ s with trunk := { s.trunk with
      handed := handed, request := request, counters := counters, lastServed := served } } : State).LinkSound :=
  h.same ⟨rfl, rfl, id, rfl, .refl _, rfl, id⟩

theorem State.LinkSound.takeUpdate (h : s.LinkSound) : s.takeUpdate.LinkSound := by
  unfold State.takeUpdate
  split
  · exact h
  · exact h
  · have taken (rest : List Handover) : ({ s with trunk := { s.trunk with handed := rest } } : State).LinkSound := h.ofTrunk _ _ _ _
    dsimp only
    split
    · exact (taken _).same (State.countTrunk_sameLink _ _)
    · split
      · exact (taken _).same (State.countTrunk_sameLink _ _)
      · exact ((taken _).same (State.applyUpdate_sameLink _ _)).arbitrate
      · exact ((taken _).same (State.applyUpdate_sameLink _ _)).arbitrate
      · exact ((taken _).same (State.applyUpdate_sameLink _ _)).arbitrate

theorem State.eligible_up {l : LaneId} (h : s.eligible l = true) : s.trunk.linkUp = true := by
  simp only [State.eligible, Bool.and_eq_true] at h
  exact h.1.2

/-- A bundle starts at an eligible lane alone, and with the link DOWN no lane is. -/
theorem State.LinkSound.sendStartAt (h : s.LinkSound) {l : LaneId} (ht : s.sendStartAt l = some t) : t.LinkSound := by
  have keeps := State.sendStartAt_keeps ht
  unfold State.sendStartAt at ht
  dsimp only at ht
  split at ht
  · cases ht
  · rename_i free
    have up : s.trunk.linkUp = true := State.eligible_up (by simp only [Bool.or_eq_true, not_or] at free; simpa using free.2)
    have mu := keeps.mu rfl
    have linkUp := (keeps.link rfl).trans up
    have responses : t.trunk.responses = s.trunk.responses := by
      split at ht
      · split at ht <;> cases ht
        rfl
      · split at ht
        · split at ht <;> cases ht
          rfl
        · cases ht
    exact h.of_up linkUp (by rw [mu]; exact .refl _) (by rw [mu]; exact h.commands) (by rw [responses]; exact h.responses)

theorem State.LinkSound.takeSendStart (h : s.LinkSound) : s.takeSendStart.LinkSound := by
  have answered : ({ s with trunk := { s.trunk with request := .none } } : State).LinkSound := h.ofTrunk _ _ _ _
  unfold State.takeSendStart
  split
  · dsimp only
    split
    · exact answered.sendStartAt ‹_›
    · exact answered.arbitrate
  · exact h
  · exact h

theorem State.LinkSound.takeBatchRequest (h : s.LinkSound) : s.takeBatchRequest.LinkSound := by
  have answered : ({ s with trunk := { s.trunk with request := .none } } : State).LinkSound := h.ofTrunk _ _ _ _
  unfold State.takeBatchRequest
  split
  · dsimp only
    split
    · rename_i ready
      simp only [Bool.and_eq_true] at ready
      exact h.of_up (h.up_of_session ready.1.1) ⟨rfl, rfl⟩ h.commands h.responses
    · exact answered.arbitrate
  · exact h
  · exact h

theorem State.LinkSound.gainLock (h : s.LinkSound) : s.gainLock.LinkSound := by
  unfold State.gainLock
  split
  · exact h
  · exact (h.of_up (t := { s with trunk := { s.trunk with linkUp := true }, lanes := _ }) rfl ⟨rfl, rfl⟩ h.commands
      h.responses).arbitrate

theorem State.lockLost_linkSound (s : State) : s.lockLost.LinkSound := by
  have wire : s.lockLost.trunk.outbound = none := s.clearWire_outbound
  have epoch : s.lockLost.mu.epoch = none := (Mu.cutEnded_sameEpochs _).1
  have queue : s.lockLost.mu.queue = [] := Mu.cutEnded_queue _
  refine ⟨fun _ => ⟨epoch, queue, rfl, rfl, wire⟩, fun e he => ?_, by rw [queue]; exact Nat.zero_le _, Nat.zero_le _⟩
  rw [epoch] at he
  cases he

theorem State.LinkSound.loseLock (h : s.LinkSound) : s.loseLock.LinkSound :=
  s.loseLock_cases State.LinkSound (fun _ => h) (fun _ => s.lockLost_linkSound) fun _ r _ _ =>
    s.lockLost_linkSound.placed r _ ⟨rfl, rfl⟩ rfl (show 0 < 8 by decide)

theorem State.LinkSound.startInbound (h : s.LinkSound) : ({ s with trunk := s.trunk.startInbound } : State).LinkSound := by
  have linkUp := s.trunk.startInbound_linkUp
  cases up : s.trunk.linkUp with
  | true =>
    refine h.of_up (linkUp.trans up) ⟨rfl, rfl⟩ h.commands ?_
    simp only [Trunk.startInbound, up, if_true]
    exact h.responses
  | false =>
    have same : s.trunk.startInbound = s.trunk := by simp [Trunk.startInbound, up]
    rw [same]
    exact h

theorem State.LinkSound.inboundByte (h : s.LinkSound) (b : Byte) : ({ s with trunk := s.trunk.inboundByte b } : State).LinkSound := by
  unfold Trunk.inboundByte
  split
  · rename_i receiving
    refine ⟨fun down => absurd ((h.down down).2.2.2.1) (by simp [receiving]), h.epoch, h.commands, h.responses⟩
  · exact h
  · exact h

theorem State.LinkSound.noInbound (h : s.LinkSound) : ({ s with trunk := { s.trunk with inbound := none } } : State).LinkSound := by
  refine ⟨fun down => ?_, h.epoch, h.commands, h.responses⟩
  obtain ⟨epoch, queue, responses, -, outbound⟩ := h.down down
  exact ⟨epoch, queue, responses, rfl, outbound⟩

theorem State.LinkSound.judgeInbound (h : s.LinkSound) (bytes : List Byte) : (s.judgeInbound bytes).LinkSound := by
  have counted (f : TrunkCounters → TrunkCounters) : (s.countTrunk f).LinkSound := h.same (s.countTrunk_sameLink f)
  unfold State.judgeInbound
  split
  · exact counted _
  · split
    · exact counted _
    · split
      · exact counted _
      · split
        · exact counted _
        · split
          · exact ((counted _).same (State.dispatch_sameLink _ _)).arbitrate
          · exact counted _

theorem State.LinkSound.inboundEnd (h : s.LinkSound) : s.inboundEnd.LinkSound := by
  unfold State.inboundEnd
  dsimp only
  split
  · exact h.noInbound.judgeInbound _
  · exact h.noInbound.same (State.countTrunk_sameLink _ _)
  · exact h

theorem State.LinkSound.frameEnds (h : s.LinkSound) : s.clearWire.countFrameOut.arbitrate.LinkSound :=
  ((h.same s.clearWire_sameLink).same (State.countTrunk_sameLink _ _)).arbitrate

theorem State.LinkSound.cutFrameEnds (h : s.LinkSound) : s.cutFrameEnds.LinkSound := by
  unfold State.cutFrameEnds
  split
  · have mu : s.clearWire.mu = s.mu := s.clearWire_keeps.mu rfl
    refine (State.LinkSound.same (s := s.clearWire) (h.same s.clearWire_sameLink) ?_).arbitrate
    exact .of_mu _ _ (mu ▸ Mu.cutEnded_sameEpochs _) (by rw [Mu.cutEnded_queue, mu])
  · exact h

/-! ## The Management Unit -/

theorem State.LinkSound.judgeArrival (h : s.LinkSound) (c : Command) : (s.judgeArrival c).LinkSound := by
  have counted (m : Mu) (epochs : s.mu.SameEpochs m) (queue : m.queue = s.mu.queue) : ({ s with mu := m } : State).LinkSound :=
    h.same (.of_mu s m epochs queue)
  have answered (r : Response) (m : Mu) (epochs : s.mu.SameEpochs m) (queue : m.queue = s.mu.queue) (room : s.trunk.hasRoom = true) :
      ({ s with trunk := s.trunk.placeResponse r, mu := m } : State).arbitrate.LinkSound :=
    (h.placed r m epochs queue (of_decide_eq_true room)).arbitrate
  unfold State.judgeArrival
  split
  · exact counted _ ⟨rfl, rfl⟩ rfl
  · rename_i up
    split
    · split
      · exact answered _ s.mu.countReplay ⟨rfl, rfl⟩ rfl ‹_›
      · exact counted _ ⟨rfl, rfl⟩ rfl
    · split
      · exact counted _ ⟨rfl, rfl⟩ rfl
      · split
        · split
          · exact answered _ s.mu.countBusy ⟨rfl, rfl⟩ rfl ‹_›
          · exact counted _ ⟨rfl, rfl⟩ rfl
        · rename_i room
          refine h.of_up (by simpa using up) ⟨rfl, rfl⟩ ?_ h.responses
          simpa using Nat.lt_of_not_le room

theorem State.LinkSound.takeArrival (h : s.LinkSound) : s.takeArrival.LinkSound := by
  unfold State.takeArrival
  split
  · exact State.LinkSound.judgeArrival (s := { s with trunk := { s.trunk with handed := _ } }) (h.ofTrunk _ _ _ _) _
  · exact h

theorem State.LinkSound.commandEnds (h : s.LinkSound) : s.commandEnds.LinkSound := by
  unfold State.commandEnds
  split
  · split
    · rename_i c r _ room
      have ended : (s.endCommand c r).LinkSound := h.placed r _ ⟨rfl, rfl⟩ rfl (of_decide_eq_true room)
      exact ended.arbitrate
    · exact h
  · exact h

theorem State.LinkSound.finish (h : s.LinkSound) (c : Command) (st : Status) (bytes : List Byte) : (s.finish c st bytes).LinkSound :=
  h.same (s.finish_sameLink c st bytes)

theorem State.LinkSound.refuseUnknown (h : s.LinkSound) : s.refuseUnknown.LinkSound := by
  unfold State.refuseUnknown
  split
  · rename_i hb
    obtain ⟨-, -, rest, queued, rfl⟩ := State.beginCommand_eq _ _ _ _ hb
    exact (h.begun queued).finish _ _ _
  · exact h

/-- A command begins with the link UP, and keeps the invariant where its own effect does. -/
theorem State.LinkSound.runCommand (h : s.LinkSound) {α : Type} {code : Byte} {parse : List Byte → Option α}
    {need : α → SessionNeed} {effect : State → Command → α → State}
    (taken : ∀ (s : State) c a, s.LinkSound → s.trunk.linkUp = true → (effect s c a).LinkSound) :
    (s.runCommand code parse need effect).LinkSound :=
  State.runCommand_cases s code parse need effect State.LinkSound h (fun c _ st _ queued => (h.begun queued).finish c st [])
    fun _ _ _ _ queued _ _ _ => taken _ _ _ (h.begun queued) (h.up_of_command queued)

theorem State.LinkSound.onCommandLane (h : s.LinkSound) (c : Command) (lane : Byte) (f : LaneId → State)
    (hf : ∀ l, (f l).LinkSound) : (s.onCommandLane c lane f).LinkSound := by
  unfold State.onCommandLane
  split
  · exact h.finish c _ _
  · exact hf _

theorem State.LinkSound.poolSet (h : s.LinkSound) (c : Command) (a : PoolSetParams) : (s.poolSet c a).LinkSound := by
  unfold State.poolSet
  split
  · exact ((h.same ((s.setThresholds_keeps a).sameLink rfl rfl)).finish c _ _).arbitrate
  · exact h.finish c _ _

theorem State.LinkSound.flushLane (h : s.LinkSound) (c : Command) (l : LaneId) : (s.flushLane c l).LinkSound := by
  unfold State.flushLane
  dsimp only
  split
  · exact (h.setLane l _).finish c _ _
  · split
    · exact (h.setLane l _).finish c _ _
    · exact ((h.setLane l _).setLane l _).finish c _ _

theorem State.LinkSound.laneFlush (h : s.LinkSound) (c : Command) (lane : Byte) : (s.laneFlush c lane).LinkSound := by
  refine h.onCommandLane c lane _ fun l => ?_
  split
  · exact h.finish c _ _
  all_goals exact (h.flushLane c l).arbitrate

theorem State.LinkSound.laneStop (h : s.LinkSound) (c : Command) (lane : Byte) : (s.laneStop c lane).LinkSound := by
  refine h.onCommandLane c lane _ fun l => ?_
  dsimp only
  split
  · exact h.finish c _ _
  · exact h.finish c _ _
  · exact (((h.setLane l _).same (State.drainCheck_sameLink _ l)).finish c _ _).arbitrate
  · split
    · exact h.finish c _ _
    · exact (h.setLane l _).finish c _ _

theorem State.LinkSound.laneReset (h : s.LinkSound) (c : Command) (lane : Byte) : (s.laneReset c lane).LinkSound := by
  refine h.onCommandLane c lane _ fun l => ?_
  have reset : (s.resetLane l).LinkSound := by
    unfold State.resetLane
    split
    · exact (h.same s.cutFrame_sameLink).same (State.disableLane_sameLink _ l)
    · exact h.same (s.disableLane_sameLink l)
  split
  · exact h.finish c _ _
  all_goals exact reset.finish c _ _

theorem State.LinkSound.openSession (h : s.LinkSound) (up : s.trunk.linkUp = true) (c : Command) (a : Unit) :
    (s.openSession c a).LinkSound := by
  unfold State.openSession
  split
  · rename_i newer
    have opened : (s.takeEpoch c.epoch).LinkSound := by
      refine ⟨fun down => absurd (up.symm.trans down) (by decide), fun e he => ?_, h.commands, h.responses⟩
      obtain rfl : c.epoch = e := Option.some.inj he
      refine ⟨rfl, fun zero => ?_⟩
      rw [zero] at newer
      exact Nat.not_lt_zero _ newer
    exact (opened.finish c _ _).arbitrate
  · exact h.finish c _ _

theorem State.LinkSound.closeSession (h : s.LinkSound) (c : Command) (a : Unit) : (s.closeSession c a).LinkSound := by
  refine State.LinkSound.finish (s := { s with mu := { s.mu with epoch := none } }) ⟨fun down => ?_, by nofun, h.commands, h.responses⟩ c _ _
  exact ⟨rfl, (h.down down).2⟩

theorem State.LinkSound.noticeRearm (h : s.LinkSound) (c : Command) (a : NoticeRearmParams) : (s.noticeRearm c a).LinkSound := by
  unfold State.noticeRearm
  split
  · exact h.finish c _ _
  · have rearmed (u : NoticeUnit) : ({ s with notices := u } : State).LinkSound := h.same (.of_eq rfl rfl)
    exact ((rearmed _).finish c _ _).arbitrate

theorem State.LinkSound.datapathReset (h : s.LinkSound) (c : Command) (a : Unit) : (s.datapathReset c a).LinkSound := by
  unfold State.datapathReset
  dsimp only
  split <;> exact h.same ⟨rfl, rfl, id, rfl, ⟨rfl, rfl⟩, rfl, id⟩

theorem State.LinkSound.phase3 (h : s.LinkSound) : s.phase3.LinkSound := by
  unfold State.phase3
  split
  · exact (h.same s.cutFrame_sameLink).same (.of_mu _ _ (Mu.setProgress_sameEpochs _ _) rfl)
  · exact h

theorem State.LinkSound.phase4 (h : s.LinkSound) : s.phase4.LinkSound := by
  unfold State.phase4
  split
  · exact ((h.same s.disableLanes_sameLink).same ((State.resetEnds_keeps _).sameLink rfl rfl)).same
      (.of_mu _ _ (Mu.setProgress_sameEpochs _ _) rfl)
  · exact h

theorem State.LinkSound.readOwner (h : s.LinkSound) (c : Command) (clear : Bool) (left : List CounterOwner) (result : List Byte) :
    (s.readOwner c clear left result).LinkSound :=
  s.readOwner_cases _ c clear left result (fun t _ h => h.same (.of_mu t _ ⟨rfl, rfl⟩ rfl)) h
    fun o => h.same (s.clearOwner_sameLink o)

theorem State.LinkSound.stepReadCounters (h : s.LinkSound) : s.stepReadCounters.LinkSound := by
  unfold State.stepReadCounters
  split
  · exact h.readOwner _ _ _ _
  · refine h.runCommand fun s c a h _ => ?_
    unfold State.readCounters
    split
    · exact h.readOwner _ _ _ _
    · exact h.finish c _ _

/-! ### The commands that answer and leave the link -/

/-- The command has its response ready, and neither the trunk nor the rest of the Management Unit has changed. -/
def State.Answers (s : State) (c : Command) (t : State) : Prop :=
  ∃ st bytes, t.mu = (s.finish c st bytes).mu ∧ t.trunk = s.trunk

theorem State.Answers.finish {c : Command} {u : State} (mu : u.mu = s.mu) (trunk : u.trunk = s.trunk) (st : Status)
    (bytes : List Byte) : s.Answers c (u.finish c st bytes) :=
  ⟨st, bytes, by unfold State.finish; rw [mu], trunk⟩

theorem State.Answers.sameLink {c : Command} (h : s.Answers c t) : s.SameLink t := by
  obtain ⟨st, bytes, mu, trunk⟩ := h
  refine ⟨by rw [trunk], by rw [trunk], by rw [trunk]; exact id, by rw [trunk], ?_, by rw [mu]; rfl, by rw [trunk]; exact id⟩
  rw [mu]
  exact ⟨rfl, rfl⟩

section
variable (s : State) (c : Command)

theorem State.portSet_answers (a : PortSetParams) : s.Answers c (s.portSet c a) := by
  unfold State.portSet
  dsimp only
  repeat' split
  all_goals exact .finish rfl rfl _ _

theorem State.streamWrite_answers (a : StreamWriteParams) : s.Answers c (s.streamWrite c a) := by
  unfold State.streamWrite
  repeat' split
  all_goals exact .finish rfl rfl _ _

theorem State.streamDelete_answers (k : RawKey) : s.Answers c (s.streamDelete c k) := by
  unfold State.streamDelete
  repeat' split
  all_goals exact .finish rfl rfl _ _

theorem State.streamRead_answers (a : StreamReadParams) : s.Answers c (s.streamRead c a) := by
  unfold State.streamRead
  split
  · exact .finish rfl rfl _ _
  · exact .finish rfl rfl _ _
  · split
    · exact .finish rfl rfl _ _
    · dsimp only
      split <;> exact .finish rfl rfl _ _

theorem State.ruleStage_answers (a : RuleStageParams) : s.Answers c (s.ruleStage c a) := by
  unfold State.ruleStage
  split <;> exact .finish rfl rfl _ _

theorem State.ruleApply_answers (a : Unit) : s.Answers c (s.ruleApply c a) := .finish rfl rfl _ _

theorem State.ruleRead_answers (a : RuleReadParams) : s.Answers c (s.ruleRead c a) := by
  unfold State.ruleRead
  split <;> exact .finish rfl rfl _ _

theorem State.classWrite_answers (a : ClassWriteParams) : s.Answers c (s.classWrite c a) := by
  unfold State.classWrite
  split <;> exact .finish rfl rfl _ _

theorem State.spreadWrite_answers (a : SpreadWriteParams) : s.Answers c (s.spreadWrite c a) := by
  unfold State.spreadWrite
  split
  · split
    · refine State.Answers.finish ?_ ?_ _ _ <;> rfl
    · exact .finish rfl rfl _ _
  · exact .finish rfl rfl _ _

theorem State.mapRead_answers (a : Unit) : s.Answers c (s.mapRead c a) := .finish rfl rfl _ _

theorem State.onCommandLane_answers (lane : Byte) (f : LaneId → State) (hf : ∀ l, s.Answers c (f l)) :
    s.Answers c (s.onCommandLane c lane f) := by
  unfold State.onCommandLane
  split
  · exact .finish rfl rfl _ _
  · exact hf _

theorem State.laneConfig_answers (a : LaneConfigParams) : s.Answers c (s.laneConfig c a) := by
  refine s.onCommandLane_answers c a.lane _ fun l => ?_
  repeat' split
  all_goals exact .finish rfl rfl _ _

theorem State.laneStart_answers (lane : Byte) : s.Answers c (s.laneStart c lane) := by
  refine s.onCommandLane_answers c lane _ fun l => ?_
  split <;> exact .finish rfl rfl _ _

theorem State.readStatus_answers (a : ReadStatusParams) : s.Answers c (s.readStatus c a) := by
  unfold State.readStatus
  split <;> exact .finish rfl rfl _ _

end

theorem State.LinkSound.answering (h : s.LinkSound) {α : Type} {code : Byte} {parse : List Byte → Option α}
    {need : α → SessionNeed} {effect : State → Command → α → State} (answers : ∀ (s : State) c a, s.Answers c (effect s c a)) :
    (s.runCommand code parse need effect).LinkSound :=
  h.runCommand fun s c a h _ => h.same (answers s c a).sameLink

theorem State.LinkSound.exec {c : Instr} (hs : s.LinkSound) (h : exec c s = .next t) (hc : ofPins c = false) : t.LinkSound := by
  cases c with
  | powerOnReset | resetRelease | lineSignalGained | lineSignalLost => cases hc
  | fieldByteArrival p b => rw [exec_fieldByteArrival] at h; exact onPort_keeps h hs fun q => hs.fieldByte q b
  | fieldEndDelimiter p => rw [exec_fieldEndDelimiter] at h; exact onPort_keeps h hs hs.fieldEnd
  | ruleSearch => rw [exec_ruleSearch] at h; exact running_keeps h hs hs.searchStage
  | learnInsert => rw [exec_learnInsert] at h; exact running_keeps h hs hs.learnStage
  | laneResolution => rw [exec_laneResolution] at h; exact running_keeps h hs hs.resolveStage
  | placement => rw [exec_placement] at h; exact running_keeps h hs hs.placeStage
  | streamUpdate => rw [exec_streamUpdate] at h; exact running_keeps h hs hs.updateStage
  | handoff l => rw [exec_handoff] at h; exact onLane_keeps h hs hs.takeHandoff
  | retransmitTimerExpiry l => rw [exec_retransmitTimerExpiry] at h; exact onLane_keeps h hs hs.retransmitExpiry
  | laneUpdate => rw [exec_laneUpdate] at h; exact running_keeps h hs hs.takeUpdate
  | sendStart => rw [exec_sendStart] at h; exact running_keeps h hs hs.takeSendStart
  | noticeBatchRequest => rw [exec_noticeBatchRequest] at h; exact running_keeps h hs hs.takeBatchRequest
  | linkUp => rw [exec_linkUp] at h; exact running_keeps h hs hs.gainLock
  | linkDown => rw [exec_linkDown] at h; exact running_keeps h hs hs.loseLock
  | trunkStartDelimiter => rw [exec_trunkStartDelimiter] at h; exact running_keeps h hs hs.startInbound
  | trunkByteArrival b => rw [exec_trunkByteArrival] at h; exact running_keeps h hs (hs.inboundByte b)
  | trunkAbortDelimiter => rw [exec_trunkAbortDelimiter] at h; exact running_keeps h hs hs.noInbound
  | trunkEndDelimiter => rw [exec_trunkEndDelimiter] at h; exact running_keeps h hs hs.inboundEnd
  | outboundFrameEnd =>
    rw [exec_outboundFrameEnd] at h
    refine running_keeps h hs ?_
    unfold State.frameOutEnds
    split
    · exact hs.frameEnds
    · exact hs.frameEnds
    · exact hs
    · exact hs
  | bundleFrameEnd =>
    rw [exec_bundleFrameEnd] at h
    refine running_keeps h hs ?_
    unfold State.bundleFrameEnds
    split
    · exact hs.frameEnds
    · exact hs
  | cutFrameEnd => rw [exec_cutFrameEnd] at h; exact running_keeps h hs hs.cutFrameEnds
  | commandArrival => rw [exec_commandArrival] at h; exact running_keeps h hs hs.takeArrival
  | commandEnd => rw [exec_commandEnd] at h; exact running_keeps h hs hs.commandEnds
  | unknownCommandCode => rw [exec_unknownCommandCode] at h; exact running_keeps h hs hs.refuseUnknown
  | portSet => rw [exec_portSet] at h; exact running_keeps h hs (hs.answering State.portSet_answers)
  | streamWrite => rw [exec_streamWrite] at h; exact running_keeps h hs (hs.answering State.streamWrite_answers)
  | streamDelete => rw [exec_streamDelete] at h; exact running_keeps h hs (hs.answering State.streamDelete_answers)
  | streamRead => rw [exec_streamRead] at h; exact running_keeps h hs (hs.answering State.streamRead_answers)
  | ruleStage => rw [exec_ruleStage] at h; exact running_keeps h hs (hs.answering State.ruleStage_answers)
  | ruleApply => rw [exec_ruleApply] at h; exact running_keeps h hs (hs.answering State.ruleApply_answers)
  | ruleRead => rw [exec_ruleRead] at h; exact running_keeps h hs (hs.answering State.ruleRead_answers)
  | classWrite => rw [exec_classWrite] at h; exact running_keeps h hs (hs.answering State.classWrite_answers)
  | spreadWrite => rw [exec_spreadWrite] at h; exact running_keeps h hs (hs.answering State.spreadWrite_answers)
  | mapRead => rw [exec_mapRead] at h; exact running_keeps h hs (hs.answering State.mapRead_answers)
  | laneConfig => rw [exec_laneConfig] at h; exact running_keeps h hs (hs.answering State.laneConfig_answers)
  | laneStart => rw [exec_laneStart] at h; exact running_keeps h hs (hs.answering State.laneStart_answers)
  | readStatus => rw [exec_readStatus] at h; exact running_keeps h hs (hs.answering State.readStatus_answers)
  | poolSet => rw [exec_poolSet] at h; exact running_keeps h hs (hs.runCommand fun _ c a h _ => h.poolSet c a)
  | laneFlush => rw [exec_laneFlush] at h; exact running_keeps h hs (hs.runCommand fun _ c a h _ => h.laneFlush c a)
  | laneStop => rw [exec_laneStop] at h; exact running_keeps h hs (hs.runCommand fun _ c a h _ => h.laneStop c a)
  | laneReset => rw [exec_laneReset] at h; exact running_keeps h hs (hs.runCommand fun _ c a h _ => h.laneReset c a)
  | openSession => rw [exec_openSession] at h; exact running_keeps h hs (hs.runCommand fun _ c a h up => h.openSession up c a)
  | closeSession => rw [exec_closeSession] at h; exact running_keeps h hs (hs.runCommand fun _ c a h _ => h.closeSession c a)
  | noticeRearm => rw [exec_noticeRearm] at h; exact running_keeps h hs (hs.runCommand fun _ c a h _ => h.noticeRearm c a)
  | datapathReset => rw [exec_datapathReset] at h; exact running_keeps h hs (hs.runCommand fun _ c a h _ => h.datapathReset c a)
  | resetPhase3 => rw [exec_resetPhase3] at h; exact running_keeps h hs hs.phase3
  | resetPhase4 => rw [exec_resetPhase4] at h; exact running_keeps h hs hs.phase4
  | readCounters => rw [exec_readCounters] at h; exact running_keeps h hs hs.stepReadCounters
  | _ => exact hs.same ((exec_keepsFootprint h rfl).sameLink rfl rfl)

end

/-- Settles O55: with the link DOWN no command waits, so none begins, and no lane and no session gives the wire a frame. -/
theorem everyStepKeepsLinkAndSessionSound : Obligations.EveryStepKeepsLinkAndSessionSound := by
  intro s t hd hs h
  refine step_keeps (P := State.LinkSound) (fun _ _ h => h.same (.of_eq rfl rfl)) (fun s => ?_) (fun s straps h => ?_)
    (fun _ _ _ h => h.same (.of_eq rfl rfl)) (fun s h => ?_) (fun c s t hs h hc => hs.exec h hc) hd hs h
  · exact ⟨fun _ => ⟨rfl, rfl, rfl, rfl, rfl⟩, by nofun, Nat.zero_le _, Nat.zero_le _⟩
  · exact h.same ⟨rfl, rfl, id, rfl, .refl _, rfl, id⟩
  · unfold State.tick
    split
    · exact h.same (.of_eq rfl rfl)
    · exact h

end Sys2Proof.Machine

/-! Proof of O58: the ports, the Classifier and the wire in the phases of DATAPATH_RESET. -/

namespace Sys2Proof.Machine

/-! ## What leaves a phase as it is -/

/-- A port with nothing to discard has nothing after, and its mark is as it was. -/
def Port.Calmed (q q' : Port) : Prop :=
  q'.resetMark = q.resetMark
    ∧ (q.resetMark = true → q.complete = [] ∧ q.accepting = false → q'.complete = [] ∧ q'.accepting = false)

section
variable {q q' : Port}

theorem Port.Calmed.refl (q : Port) : q.Calmed q := ⟨rfl, fun _ => id⟩

theorem Port.Calmed.trans {q'' : Port} (h : q.Calmed q') (h' : q'.Calmed q'') : q.Calmed q'' :=
  ⟨h'.1.trans h.1, fun marked calm => h'.2 (h.1.trans marked) (h.2 marked calm)⟩

/-- In phases 1 to 7 no ACCEPT frame is in reception, so what happens to one does not matter. -/
theorem Port.Calmed.of_accepting (accepting : q.accepting = true) (mark : q'.resetMark = q.resetMark) : q.Calmed q' :=
  ⟨mark, fun _ calm => absurd calm.2 (by simp [accepting])⟩

theorem Port.Calmed.of_eq (mark : q'.resetMark = q.resetMark) (complete : q'.complete = q.complete)
    (accepting : q'.accepting = q.accepting) : q.Calmed q' :=
  ⟨mark, fun _ calm => ⟨complete.trans calm.1, accepting.trans calm.2⟩⟩

theorem Port.Calmed.quieted (mark : q'.resetMark = q.resetMark) (complete : q'.complete = q.complete)
    (quiet : q'.accepting = false) : q.Calmed q' :=
  ⟨mark, fun _ calm => ⟨complete.trans calm.1, quiet⟩⟩

theorem Port.cutReception_calmed (q : Port) : q.Calmed q.cutReception := by
  unfold Port.cutReception
  split
  · exact .refl q
  all_goals exact .quieted rfl rfl rfl

theorem Port.loseSignal_calmed (q : Port) : q.Calmed q.loseSignal := q.cutReception_calmed.trans (.of_eq rfl rfl rfl)

theorem Port.startFrame_calmed (q : Port) : q.Calmed q.startFrame := by
  have mark : q.startFrame.resetMark = q.resetMark := by
    unfold Port.startFrame
    split
    · exact q.cutReception_calmed.1
    · rfl
  refine ⟨mark, fun marked calm => ?_⟩
  have mode : q.startMode = some .reset := by simp [Port.startMode, marked]
  unfold Port.startFrame
  rw [mode]
  exact ⟨(q.cutReception_calmed.2 marked calm).1, rfl⟩

theorem Port.disable_calmed (q : Port) : q.Calmed q.disable := ⟨rfl, fun _ _ => ⟨rfl, q.discardFrames_quiet⟩⟩

end

/-- What the phases of a DATAPATH_RESET see of the part is as it was. -/
structure State.SamePhase (s t : State) : Prop where
  ports : ∀ p, (s.port p).Calmed (t.port p)
  abandon : t.classifier.abandon = s.classifier.abandon
  frame : t.classifier.frame.isSome = s.classifier.frame.isSome
  executing : t.mu.executing = s.mu.executing
  bundle : s.trunk.bundleOnWire = false → t.trunk.bundleOnWire = false

section
variable {s t u : State}

theorem State.SamePhase.refl (s : State) : s.SamePhase s := ⟨fun _ => .refl _, rfl, rfl, rfl, id⟩

theorem State.SamePhase.trans (h : s.SamePhase t) (h' : t.SamePhase u) : s.SamePhase u where
  ports p := (h.ports p).trans (h'.ports p)
  abandon := h'.abandon.trans h.abandon
  frame := h'.frame.trans h.frame
  executing := h'.executing.trans h.executing
  bundle e := h'.bundle (h.bundle e)

/-- An event of the lanes, the tables or the trunk. -/
theorem State.Keeps.samePhase {fp : Footprint} (k : s.Keeps fp t) (hp : fp.ports = false) (hc : fp.classifier = false)
    (hm : fp.mu = false) (bundle : s.trunk.bundleOnWire = false → t.trunk.bundleOnWire = false) : s.SamePhase t where
  ports p := by unfold State.port; rw [k.ports hp]; exact .refl _
  abandon := by rw [k.classifier hc]
  frame := by rw [k.classifier hc]
  executing := by rw [k.mu hm]
  bundle := bundle

theorem State.Keeps.samePhase' {fp : Footprint} (k : s.Keeps fp t) (hp : fp.ports = false) (hc : fp.classifier = false)
    (hm : fp.mu = false) (ht : fp.trunk = false) : s.SamePhase t :=
  k.samePhase hp hc hm (by rw [k.trunk ht]; exact id)

theorem State.setPort_samePhase (s : State) (p : PortId) {x : Port} (hx : (s.port p).Calmed x) : s.SamePhase (s.setPort p x) where
  ports q := by
    by_cases e : q = p
    · subst e
      rw [State.port_setPort]
      exact hx
    · rw [State.port_setPort_ne s x e]
      exact .refl _
  abandon := rfl
  frame := rfl
  executing := rfl
  bundle := id

theorem State.countPort_samePhase (s : State) (p : PortId) (f : PortCounters → PortCounters) : s.SamePhase (s.countPort p f) :=
  s.setPort_samePhase p (.of_eq rfl rfl rfl)

theorem State.raise_samePhase (s : State) (i : SourceNo) : s.SamePhase (s.raise i) := ⟨fun _ => .refl _, rfl, rfl, rfl, id⟩

theorem State.countTrunk_samePhase (s : State) (f : TrunkCounters → TrunkCounters) : s.SamePhase (s.countTrunk f) :=
  ⟨fun _ => .refl _, rfl, rfl, rfl, id⟩

theorem State.setLane_samePhase (s : State) (l : LaneId) (x : Lane) : s.SamePhase (s.setLane l x) :=
  ⟨fun _ => .refl _, rfl, rfl, rfl, id⟩

theorem State.setStage_samePhase {f g : FrameInProgress} (s : State) (hf : s.classifier.frame = some f) (stage : Stage) :
    s.SamePhase (s.setStage g stage) :=
  ⟨fun _ => .refl _, rfl, by simp [State.setStage, hf], rfl, id⟩

/-! ## The invariant through events -/

/-- The invariant where the phases show what they showed. -/
theorem State.PhasesSound.of_flags (h : s.PhasesSound) (ports : ∀ p, (s.port p).Calmed (t.port p))
    (abandon : t.classifier.abandon = s.classifier.abandon) (frame : t.classifier.frame.isSome = s.classifier.frame.isSome)
    (atPorts : t.resetAtPorts = s.resetAtPorts) (abandoning : t.resetAbandoning = s.resetAbandoning)
    (wire : t.resetPastWire = true → t.trunk.bundleOnWire = false) : t.PhasesSound where
  marked p := by rw [(ports p).1, h.marked p, atPorts]
  empty p e := by
    rw [atPorts] at e
    exact (ports p).2 ((h.marked p).trans e) (h.empty p e)
  abandon := by rw [abandon, abandoning, h.abandon]
  working e := by
    rw [frame]
    exact h.working (abandon.symm.trans e)
  idle e e' := by
    rw [atPorts] at e
    rw [abandoning] at e'
    have none := h.idle e e'
    rw [none] at frame
    exact Option.isSome_eq_false_iff.mp frame |> Option.isNone_iff_eq_none.mp
  wire := wire

theorem State.PhasesSound.same (h : s.PhasesSound) (k : s.SamePhase t) : t.PhasesSound := by
  refine h.of_flags k.ports k.abandon k.frame ?_ ?_ fun past => k.bundle (h.wire ?_)
  · unfold State.resetAtPorts; rw [k.executing]
  · unfold State.resetAbandoning; rw [k.executing]
  · unfold State.resetPastWire at past ⊢; rwa [k.executing] at past

/-- The progress of no DATAPATH_RESET before its response: nothing in execution, or a response ready, or counters read. -/
def Mu.outOfReset (m : Mu) : Prop :=
  ∀ x, m.executing = some x → (∃ r, x.progress = .done r) ∨ ∃ clear left result, x.progress = .reading clear left result

theorem Mu.outOfReset_of_none {m : Mu} (h : m.executing = none) : m.outOfReset := by
  intro x hx
  rw [h] at hx
  cases hx

theorem Mu.outOfReset_of_done {m : Mu} {c : Command} {r : Response} (h : m.executing = some ⟨c, .done r⟩) : m.outOfReset := by
  intro x hx
  rw [h] at hx
  cases hx
  exact .inl ⟨r, rfl⟩

theorem State.flags_outOfReset (h : s.mu.outOfReset) :
    s.resetAtPorts = false ∧ s.resetAbandoning = false ∧ s.resetPastWire = false := by
  unfold State.resetAtPorts State.resetAbandoning State.resetPastWire
  cases e : s.mu.executing with
  | none => exact ⟨rfl, rfl, rfl⟩
  | some x =>
    obtain ⟨c, progress⟩ := x
    rcases h _ e with ⟨r, rfl⟩ | ⟨clear, left, result, rfl⟩ <;> exact ⟨rfl, rfl, rfl⟩

/-- A command other than DATAPATH_RESET from one of its events to another. -/
theorem State.PhasesSound.outOfReset (h : s.PhasesSound) (before : s.mu.outOfReset) (after : t.mu.outOfReset)
    (ports : ∀ p, (s.port p).Calmed (t.port p)) (abandon : t.classifier.abandon = s.classifier.abandon)
    (frame : t.classifier.frame.isSome = s.classifier.frame.isSome) : t.PhasesSound := by
  obtain ⟨b1, b2, b3⟩ := State.flags_outOfReset before
  obtain ⟨a1, a2, a3⟩ := State.flags_outOfReset after
  exact h.of_flags ports abandon frame (a1.trans b1.symm) (a2.trans b2.symm) fun past => absurd (a3.symm.trans past) (by decide)

/-- A command whose response is ready ends; the wire has no bundle frame or keeps what it has. -/
theorem State.PhasesSound.ended (h : s.PhasesSound) {c : Command} {r : Response} (ready : s.mu.readyResponse = some (c, r)) :
    (s.endCommand c r).PhasesSound := by
  have flags : s.resetAtPorts = false ∧ s.resetAbandoning = false := by
    unfold Mu.readyResponse at ready
    unfold State.resetAtPorts State.resetAbandoning
    split at ready
    · rename_i e; rw [e]; exact ⟨rfl, rfl⟩
    · rename_i e; rw [e]; exact ⟨rfl, rfl⟩
    · cases ready
  exact h.of_flags (fun _ => .refl _) rfl rfl flags.1.symm flags.2.symm nofun

theorem State.PhasesSound.startResponse (h : s.PhasesSound) (r : Response) (rest : List Response) :
    (s.startResponse r rest).PhasesSound := by
  have started : ({ s with trunk := { s.trunk with
      responses := rest, outbound := some (.response r (r.frame s.trunk.unit)) } } : State).PhasesSound :=
    h.same ⟨fun _ => .refl _, rfl, rfl, rfl, fun _ => rfl⟩
  unfold State.startResponse
  dsimp only
  split
  · exact started
  · split
    · rename_i ready
      exact started.ended ready
    · exact started

theorem State.PhasesSound.arbitrate (h : s.PhasesSound) : s.arbitrate.PhasesSound := by
  have requested (x : ArbiterRequest) : ({ s with trunk := { s.trunk with request := x } } : State).PhasesSound :=
    h.same ⟨fun _ => .refl _, rfl, rfl, rfl, id⟩
  unfold State.arbitrate
  split
  · split
    · exact h.startResponse _ _
    · split
      · exact requested _
      · split
        · exact h
        · split
          · exact requested _
          · exact h
  · exact h

theorem State.PhasesSound.raised (h : s.PhasesSound) (i : SourceNo) : (s.raise i).arbitrate.PhasesSound :=
  (h.same (s.raise_samePhase i)).arbitrate

/-! ### The field ports -/

theorem State.PhasesSound.setPort (h : s.PhasesSound) (p : PortId) {x : Port} (hx : (s.port p).Calmed x) :
    (s.setPort p x).PhasesSound := h.same (s.setPort_samePhase p hx)

theorem State.PhasesSound.lineChanges (h : s.PhasesSound) (p : PortId) (signal : Bool) : (s.lineChanges p signal).PhasesSound := by
  have line : (s.setLine p signal).PhasesSound := h.same ⟨fun _ => .refl _, rfl, rfl, rfl, id⟩
  unfold State.lineChanges
  cases signal with
  | true => exact line.setPort p (.of_eq rfl rfl rfl)
  | false => exact line.setPort p (Port.loseSignal_calmed _)

theorem State.PhasesSound.fieldByte (h : s.PhasesSound) (p : PortId) (b : Byte) : (s.fieldByte p b).PhasesSound := by
  unfold State.fieldByte
  dsimp only
  split
  · rename_i hr
    have accepting : (s.port p).accepting = true := by simp [Port.accepting, hr]
    split
    · exact h.setPort p (.of_accepting accepting rfl)
    · split
      · exact (h.setPort p (.of_accepting accepting (by rfl))).raised _
      · exact h.setPort p (.of_accepting accepting rfl)
  · exact h

theorem State.PhasesSound.fieldEnd (h : s.PhasesSound) (p : PortId) : (s.fieldEnd p).PhasesSound := by
  have bad (accepting : (s.port p).accepting = true) (f : PortCounters → PortCounters) : (s.badFrameEnds p f).PhasesSound := by
    unfold State.badFrameEnds
    dsimp only
    split
    · exact (h.setPort p (.of_accepting accepting (by rfl))).raised _
    · exact h.setPort p (.of_accepting accepting rfl)
  unfold State.fieldEnd
  dsimp only
  split
  · exact h
  · rename_i hr
    exact bad (by simp [Port.accepting, hr]) _
  · rename_i hr
    have accepting : (s.port p).accepting = true := by simp [Port.accepting, hr]
    split
    · exact bad accepting _
    · split
      · exact bad accepting _
      · split <;> exact h.setPort p (.of_accepting accepting rfl)
  all_goals exact h.setPort p (.quieted rfl rfl rfl)

/-! ### The Classifier -/

/-- A marked port offers no frame. -/
theorem State.PhasesSound.not_atPorts (h : s.PhasesSound) {p : PortId} {x : List Byte × Port} (offered : (s.port p).offer = some x) :
    s.resetAtPorts = false := by
  cases e : s.resetAtPorts with
  | false => rfl
  | true =>
    unfold Port.offer at offered
    rw [(h.empty p e).1] at offered
    split at offered
    · rename_i full
      cases full
    · cases offered

/-- Outside phases 1 to 7 there is no abandon request. -/
theorem State.PhasesSound.not_abandon (h : s.PhasesSound) (out : s.resetAtPorts = false) : s.classifier.abandon = false := by
  rw [h.abandon]
  unfold State.resetAtPorts at out
  unfold State.resetAbandoning
  split
  · rename_i e
    rw [e] at out
    cases out
  · rfl

/-- Outside phases 1 to 7 the Classifier may begin and end a frame. -/
theorem State.PhasesSound.classified (h : s.PhasesSound) (out : s.resetAtPorts = false) (marks : ∀ p, (t.port p).resetMark = (s.port p).resetMark)
    (abandon : t.classifier.abandon = s.classifier.abandon) (executing : t.mu.executing = s.mu.executing)
    (trunk : t.trunk = s.trunk) : t.PhasesSound := by
  have atPorts : t.resetAtPorts = s.resetAtPorts := by unfold State.resetAtPorts; rw [executing]
  refine ⟨fun p => ?_, fun p e => ?_, ?_, fun e => ?_, fun e => ?_, fun past => ?_⟩
  · rw [marks p, h.marked p, atPorts]
  · exact absurd ((atPorts.trans out).symm.trans e) (by decide)
  · rw [abandon, h.abandon]; unfold State.resetAbandoning; rw [executing]
  · exact absurd ((abandon.trans (h.not_abandon out)).symm.trans e) (by decide)
  · exact absurd ((atPorts.trans out).symm.trans e) (by decide)
  · rw [trunk]
    refine h.wire ?_
    unfold State.resetPastWire at past ⊢
    rwa [executing] at past

theorem Port.offer_mark {q q' : Port} {bytes : List Byte} (h : q.offer = some (bytes, q')) : q'.resetMark = q.resetMark := by
  unfold Port.offer at h
  split at h <;> cases h
  rfl

theorem State.marks_setPort (s : State) (p : PortId) {x : Port} (hx : x.resetMark = (s.port p).resetMark) (q : PortId) :
    ((s.setPort p x).port q).resetMark = (s.port q).resetMark := by
  by_cases e : q = p
  · subst e
    rw [State.port_setPort, hx]
  · rw [State.port_setPort_ne s x e]

theorem State.PhasesSound.takeFrame (h : s.PhasesSound) : s.takeFrame.PhasesSound := by
  unfold State.takeFrame
  split
  · rename_i p idle _
    split
    · rename_i bytes q offered
      have out := h.not_atPorts offered
      have mark := Port.offer_mark offered
      have position : ({ s.setPort p q with classifier := { s.classifier with position := p + 1 } } : State).PhasesSound :=
        h.classified out (s.marks_setPort p mark) rfl rfl rfl
      dsimp only
      split
      · refine position.classified out (State.marks_setPort _ _ rfl) rfl rfl rfl
      · exact (position.same (State.countPort_samePhase _ _ _)).setPort p (.of_eq rfl rfl rfl)
    · exact h
  · exact h

/-- The boundary of a record: its frame ends where an abandon is requested, and phase 3 is due. -/
theorem State.PhasesSound.recordEnds (h : s.PhasesSound) {f g : FrameInProgress} (working : s.classifier.frame = some g) :
    (s.recordEnds f).PhasesSound := by
  unfold State.recordEnds
  split
  · have released := s.setPort_samePhase f.port (x := (s.port f.port).release) (.of_eq rfl rfl rfl)
    unfold State.endFrame
    dsimp only
    split
    · rename_i requested
      have abandoning : s.resetAbandoning = true := h.abandon.symm.trans requested
      obtain ⟨c, executing⟩ : ∃ c, s.mu.executing = some ⟨c, .abandoning⟩ := by
        unfold State.resetAbandoning at abandoning
        split at abandoning
        · exact ⟨_, ‹_›⟩
        · cases abandoning
      have atPorts : s.resetAtPorts = true := by unfold State.resetAtPorts; rw [executing]
      have due : s.mu.abandonDone.executing = some ⟨c, .phase3Due⟩ := by simp [Mu.abandonDone, Mu.setProgress, executing]
      have atPorts' {t : State} (e : t.mu.executing = some ⟨c, .phase3Due⟩) :
          t.resetAtPorts = true ∧ t.resetAbandoning = false ∧ t.resetPastWire = false := by
        unfold State.resetAtPorts State.resetAbandoning State.resetPastWire
        rw [e]
        exact ⟨rfl, rfl, rfl⟩
      refine ⟨fun p => ?_, fun p _ => ?_, ?_, by nofun, fun _ _ => rfl, fun past => ?_⟩
      · rw [(atPorts' due).1]
        exact (released.ports p).1.trans ((h.marked p).trans atPorts)
      · exact (released.ports p).2 ((h.marked p).trans atPorts) (h.empty p atPorts)
      · exact (atPorts' due).2.1.symm
      · exact absurd ((atPorts' due).2.2.symm.trans past) (by decide)
    · rename_i requested
      have none : s.classifier.abandon = false := by simpa using requested
      have ports := fun p => (released.ports p)
      refine ⟨fun p => (ports p).1.trans (h.marked p), fun p e => (ports p).2 ((h.marked p).trans e) (h.empty p e), ?_, by nofun,
        fun _ _ => rfl, h.wire⟩
      exact none.symm.trans h.abandon
  · have begun (x : FrameInProgress) : s.SamePhase { s with classifier := { s.classifier with frame := some x } } :=
      ⟨fun _ => .refl _, rfl, by simp [working], rfl, id⟩
    exact h.same ((begun _).trans (State.countPort_samePhase _ _ _))

theorem State.PhasesSound.setStage (h : s.PhasesSound) {f g : FrameInProgress} (working : s.classifier.frame = some f) (stage : Stage) :
    (s.setStage g stage).PhasesSound := h.same (s.setStage_samePhase working stage)

theorem State.PhasesSound.routeEnds (h : s.PhasesSound) {f g : FrameInProgress} (working : s.classifier.frame = some f)
    (route : Route) (o : UpdateOutcome) : (s.routeEnds g route o).PhasesSound := by
  unfold State.routeEnds
  split
  · exact h.setStage working _
  · exact h.recordEnds working

theorem State.judgeHit_samePhase {f g : FrameInProgress} (s : State) (working : s.classifier.frame = some f)
    (snap : Snapshot) (r : FieldRecord) : s.SamePhase (s.judgeHit g snap r) := by
  unfold State.judgeHit
  split
  · exact ⟨fun _ => .refl _, rfl, by simp [State.setStage, working], rfl, id⟩
  · exact ⟨fun _ => .refl _, rfl, by simp [State.setStage, working], rfl, id⟩
  · dsimp only
    split
    · exact s.setStage_samePhase working _
    · exact ⟨fun _ => .refl _, rfl, by simp [State.setStage, working], rfl, id⟩

theorem State.PhasesSound.lookupStage (h : s.PhasesSound) : s.lookupStage.PhasesSound := by
  unfold State.lookupStage
  split
  · rename_i working
    split
    · split
      · exact h.same (s.judgeHit_samePhase working _ _)
      · exact h.setStage working _
    · exact h
  · exact h

theorem State.PhasesSound.searchStage (h : s.PhasesSound) : s.searchStage.PhasesSound := by
  unfold State.searchStage
  split
  · rename_i f working
    have counted (c : PortCounters → PortCounters) : (s.countPort f.port c).PhasesSound := h.same (s.countPort_samePhase _ _)
    split
    · split
      · exact (((counted _).same (State.raise_samePhase _ _)).recordEnds (g := f) working).arbitrate
      · dsimp only
        split
        · exact (counted _).recordEnds (g := f) working
        · split <;> exact h.setStage working _
    · exact h
  · exact h

theorem State.PhasesSound.learnStage (h : s.PhasesSound) : s.learnStage.PhasesSound := by
  have table (x : StreamTable) : ({ s with streams := x } : State).PhasesSound := h.same ⟨fun _ => .refl _, rfl, rfl, rfl, id⟩
  unfold State.learnStage
  split
  · rename_i f working
    split
    · dsimp only
      split
      · exact (table _).same (State.judgeHit_samePhase _ (by exact working) _ _)
      · exact (table _).same (State.judgeHit_samePhase _ (by exact working) _ _)
      · exact (((table _).same (State.raise_samePhase _ _)).setStage (f := f) working _).arbitrate
    · exact h
  · exact h

theorem State.PhasesSound.resolveStage (h : s.PhasesSound) : s.resolveStage.PhasesSound := by
  unfold State.resolveStage
  split
  · rename_i f working
    have counted (x : Classifier) (abandon : x.abandon = s.classifier.abandon) (frame : x.frame = s.classifier.frame) :
        ({ s with classifier := x } : State).PhasesSound := h.same ⟨fun _ => .refl _, abandon, by rw [frame], rfl, id⟩
    split
    · split
      · exact h.setStage working _
      · exact (counted _ (by rfl) (by rfl)).routeEnds (f := f) (by exact working) _ _
      · exact (counted _ (by rfl) (by rfl)).routeEnds (f := f) (by exact working) _ _
    · exact h
  · exact h

theorem State.PhasesSound.placeStage (h : s.PhasesSound) : s.placeStage.PhasesSound := by
  unfold State.placeStage
  split
  · rename_i f working
    split
    · have k := s.place_keeps
      exact ((h.same ((k _ _).samePhase' rfl rfl rfl rfl)).routeEnds (f := f) (by rw [(k _ _).classifier rfl]; exact working) _ _).arbitrate
    · exact h
  · exact h

theorem State.PhasesSound.updateStage (h : s.PhasesSound) : s.updateStage.PhasesSound := by
  have table (x : StreamTable) : ({ s with streams := x } : State).PhasesSound := h.same ⟨fun _ => .refl _, rfl, rfl, rfl, id⟩
  unfold State.updateStage
  split
  · rename_i f working
    split
    · exact (table _).recordEnds (g := f) working
    · exact h
  · exact h

end

end Sys2Proof.Machine

namespace Sys2Proof.Machine

section
variable {s t : State}

/-! ### The lanes and the trunk -/

theorem State.PhasesSound.setLane (h : s.PhasesSound) (l : LaneId) (x : Lane) : (s.setLane l x).PhasesSound :=
  h.same (s.setLane_samePhase l x)

theorem State.PhasesSound.takeHandoff (h : s.PhasesSound) (l : LaneId) :
    (if (s.lane l).offered.isSome then (s.setLane l ((s.lane l).settle l)).arbitrate else s).PhasesSound := by
  split
  · exact (h.setLane l _).arbitrate
  · exact h

theorem State.PhasesSound.retransmitExpiry (h : s.PhasesSound) (l : LaneId) : (s.retransmitExpiry l).PhasesSound := by
  unfold State.retransmitExpiry
  dsimp only
  split
  · split
    · exact ((h.setLane l _).same ((State.notify_keeps _ _ _).samePhase' rfl rfl rfl rfl)).arbitrate
    · exact (h.setLane l _).arbitrate
  · exact h

theorem State.PhasesSound.ofTrunk (h : s.PhasesSound) (x : Trunk) (bundle : s.trunk.bundleOnWire = false → x.bundleOnWire = false) :
    ({ s with trunk := x } : State).PhasesSound := h.same ⟨fun _ => .refl _, rfl, rfl, rfl, bundle⟩

theorem State.PhasesSound.takeUpdate (h : s.PhasesSound) : s.takeUpdate.PhasesSound := by
  unfold State.takeUpdate
  split
  · exact h
  · exact h
  · rename_i u rest _
    have taken : ({ s with trunk := { s.trunk with handed := rest } } : State).PhasesSound := h.ofTrunk _ id
    have applied := (taken.same ((State.applyUpdate_keeps _ u).samePhase rfl rfl rfl (State.applyUpdate_sameLink _ u).bundle)).arbitrate
    dsimp only
    split
    · exact taken.same (State.countTrunk_samePhase _ _)
    · split
      · exact taken.same (State.countTrunk_samePhase _ _)
      all_goals exact applied

/-- No bundle starts while a DATAPATH_RESET executes (R163). -/
theorem State.PhasesSound.sendStartAt (h : s.PhasesSound) {l : LaneId} (ht : s.sendStartAt l = some t) : t.PhasesSound := by
  have keeps := State.sendStartAt_keeps ht
  have ports : ∀ p, (s.port p).Calmed (t.port p) := fun p => by unfold State.port; rw [keeps.ports rfl]; exact .refl _
  have executing : t.mu.executing = s.mu.executing := by rw [keeps.mu rfl]
  have out : s.resetInExecution = false := by
    unfold State.sendStartAt at ht
    dsimp only at ht
    split at ht
    · cases ht
    · rename_i free
      simp only [Bool.or_eq_true, not_or] at free
      simpa using free.1.2
  refine h.of_flags ports (by rw [keeps.classifier rfl]) (by rw [keeps.classifier rfl]) ?_ ?_ fun past => ?_
  · unfold State.resetAtPorts; rw [executing]
  · unfold State.resetAbandoning; rw [executing]
  · unfold State.resetPastWire at past
    unfold State.resetInExecution at out
    rw [executing] at past
    split at past
    · rename_i e; rw [e] at out; cases out
    · rename_i e; rw [e] at out; cases out
    · cases past

theorem State.PhasesSound.takeSendStart (h : s.PhasesSound) : s.takeSendStart.PhasesSound := by
  have answered : ({ s with trunk := { s.trunk with request := .none } } : State).PhasesSound := h.ofTrunk _ id
  unfold State.takeSendStart
  split
  · dsimp only
    split
    · exact answered.sendStartAt ‹_›
    · exact answered.arbitrate
  · exact h
  · exact h

theorem State.PhasesSound.takeBatchRequest (h : s.PhasesSound) : s.takeBatchRequest.PhasesSound := by
  unfold State.takeBatchRequest
  split
  · dsimp only
    split
    · exact h.same ⟨fun _ => .refl _, rfl, rfl, rfl, fun _ => rfl⟩
    · exact State.PhasesSound.arbitrate (s := { s with trunk := { s.trunk with request := .none } }) (h.ofTrunk _ id)
  · exact h
  · exact h

theorem State.PhasesSound.gainLock (h : s.PhasesSound) : s.gainLock.PhasesSound := by
  have up (lanes : Vector Lane 16) : ({ s with trunk := { s.trunk with linkUp := true }, lanes := lanes } : State).PhasesSound :=
    h.same ⟨fun _ => .refl _, rfl, rfl, rfl, id⟩
  unfold State.gainLock
  split
  · exact h
  · exact (up _).arbitrate

theorem State.bundleOnWire_clearWire (s : State) : s.clearWire.trunk.bundleOnWire = false := by
  unfold Trunk.bundleOnWire
  rw [s.clearWire_outbound]

theorem State.PhasesSound.clearWire (h : s.PhasesSound) : s.clearWire.PhasesSound :=
  h.same (s.clearWire_keeps.samePhase rfl rfl rfl s.clearWire_sameLink.bundle)

/-- A wait for a cut frame ends with the wire free (R163, R182). -/
theorem State.PhasesSound.cutEnded (h : s.PhasesSound) (free : t.trunk.bundleOnWire = false)
    (ports : ∀ p, (s.port p).Calmed (t.port p)) (classifier : t.classifier = s.classifier) (m : Mu)
    (same : m.executing = s.mu.executing) (mu : t.mu = m.cutEnded) : t.PhasesSound := by
  have cases : t.mu.executing = s.mu.executing ∨ ∃ c aborted, s.mu.executing = some ⟨c, .cutting aborted⟩
      ∧ t.mu.executing = some ⟨c, .phase4Due aborted⟩ := by
    rw [mu]
    unfold Mu.cutEnded
    split
    · rename_i c aborted e
      exact .inr ⟨c, aborted, same.symm.trans e, by simp [Mu.setProgress, e]⟩
    · exact .inl same
  refine h.of_flags ports (by rw [classifier]) (by rw [classifier]) ?_ ?_ fun _ => free
  · unfold State.resetAtPorts
    rcases cases with e | ⟨c, aborted, e, e'⟩
    · rw [e]
    · rw [e, e']
  · unfold State.resetAbandoning
    rcases cases with e | ⟨c, aborted, e, e'⟩
    · rw [e]
    · rw [e, e']

theorem State.PhasesSound.lockLost (h : s.PhasesSound) : s.lockLost.PhasesSound :=
  h.clearWire.cutEnded s.bundleOnWire_clearWire (fun _ => .refl _) rfl s.clearWire.mu.linkDown rfl rfl

theorem State.PhasesSound.loseLock (h : s.PhasesSound) : s.loseLock.PhasesSound :=
  s.loseLock_cases State.PhasesSound (fun _ => h) (fun _ => h.lockLost) fun _ _ _ ready => h.lockLost.ended ready

theorem State.PhasesSound.inboundEnd (h : s.PhasesSound) : s.inboundEnd.PhasesSound := by
  have counted (t : State) (ht : t.PhasesSound) (f : TrunkCounters → TrunkCounters) : (t.countTrunk f).PhasesSound :=
    ht.same (t.countTrunk_samePhase f)
  have judged (t : State) (ht : t.PhasesSound) (bytes : List Byte) : (t.judgeInbound bytes).PhasesSound := by
    unfold State.judgeInbound
    split
    · exact counted t ht _
    · split
      · exact counted t ht _
      · split
        · exact counted t ht _
        · split
          · exact counted t ht _
          · split
            · exact ((counted t ht _).same ((State.dispatch_keeps _ _).samePhase rfl rfl rfl (State.dispatch_sameLink _ _).bundle)).arbitrate
            · exact counted t ht _
  unfold State.inboundEnd
  dsimp only
  split
  · exact judged _ (h.ofTrunk { s.trunk with inbound := none } id) _
  · exact counted _ (h.ofTrunk { s.trunk with inbound := none } id) _
  · exact h

theorem State.PhasesSound.frameEnds (h : s.PhasesSound) : s.clearWire.countFrameOut.arbitrate.PhasesSound :=
  (h.clearWire.same (State.countTrunk_samePhase _ _)).arbitrate

theorem State.PhasesSound.cutFrameEnds (h : s.PhasesSound) : s.cutFrameEnds.PhasesSound := by
  unfold State.cutFrameEnds
  split
  · have ended : ({ s.clearWire with mu := s.mu.cutEnded } : State).PhasesSound :=
      h.clearWire.cutEnded (s := s.clearWire) s.bundleOnWire_clearWire (fun _ => .refl _) rfl s.mu
        (congrArg Mu.executing (s.clearWire_keeps.mu rfl).symm) rfl
    exact ended.arbitrate
  · exact h

/-! ### The Management Unit -/

/-- A change of the Management Unit but for the command in execution, and of the responses. -/
theorem State.PhasesSound.ofMu (h : s.PhasesSound) (m : Mu) (same : m.executing = s.mu.executing) :
    ({ s with mu := m } : State).PhasesSound := h.same ⟨fun _ => .refl _, rfl, rfl, same, id⟩

theorem Trunk.placeResponse_bundle (t : Trunk) (r : Response) : (t.placeResponse r).bundleOnWire = t.bundleOnWire := by
  unfold Trunk.placeResponse
  split <;> rfl

theorem State.PhasesSound.judgeArrival (h : s.PhasesSound) (c : Command) : (s.judgeArrival c).PhasesSound := by
  have answered (r : Response) (m : Mu) (same : m.executing = s.mu.executing) :
      ({ s with trunk := s.trunk.placeResponse r, mu := m } : State).arbitrate.PhasesSound :=
    State.PhasesSound.arbitrate (h.same ⟨fun _ => .refl _, rfl, rfl, same, (by rw [Trunk.placeResponse_bundle]; exact id)⟩)
  unfold State.judgeArrival
  split
  · exact h.ofMu _ rfl
  · split
    · split
      · exact answered _ s.mu.countReplay rfl
      · exact h.ofMu _ rfl
    · split
      · exact h.ofMu _ rfl
      · split
        · split
          · exact answered _ s.mu.countBusy rfl
          · exact h.ofMu _ rfl
        · exact h.ofMu _ rfl

theorem State.PhasesSound.takeArrival (h : s.PhasesSound) : s.takeArrival.PhasesSound := by
  unfold State.takeArrival
  split
  · rename_i rest _
    have taken : ({ s with trunk := { s.trunk with handed := rest } } : State).PhasesSound := h.ofTrunk _ id
    exact taken.judgeArrival _
  · exact h

theorem State.PhasesSound.commandEnds (h : s.PhasesSound) : s.commandEnds.PhasesSound := by
  unfold State.commandEnds
  split
  · split
    · exact (h.ended ‹_›).arbitrate
    · exact h
  · exact h

/-- A command begins with none in execution. -/
theorem State.PhasesSound.runCommand (h : s.PhasesSound) {α : Type} {code : Byte} {parse : List Byte → Option α}
    {need : α → SessionNeed} {effect : State → Command → α → State}
    (taken : ∀ (s : State) c a, s.PhasesSound → s.mu.outOfReset → (effect s c a).PhasesSound) :
    (s.runCommand code parse need effect).PhasesSound :=
  State.runCommand_cases s code parse need effect State.PhasesSound h
    (fun _ _ _ idle _ => h.outOfReset (Mu.outOfReset_of_none idle) (Mu.outOfReset_of_done rfl) (fun _ => .refl _) rfl rfl)
    fun _ rest _ idle _ _ _ _ => taken _ _ _ (h.ofMu { s.mu with queue := rest } rfl) (Mu.outOfReset_of_none idle)

theorem State.PhasesSound.finish (h : s.PhasesSound) (out : s.mu.outOfReset) (c : Command) (st : Status) (bytes : List Byte) :
    (s.finish c st bytes).PhasesSound :=
  h.outOfReset out (Mu.outOfReset_of_done rfl) (fun _ => .refl _) rfl rfl

/-- A command that answers, and discards at the ports at most. -/
theorem State.PhasesSound.answered (h : s.PhasesSound) (out : s.mu.outOfReset) {c : Command} (answers : s.Answers c t)
    (ports : ∀ p, (s.port p).Calmed (t.port p)) (classifier : t.classifier = s.classifier) : t.PhasesSound := by
  obtain ⟨st, bytes, mu, -⟩ := answers
  exact h.outOfReset out (Mu.outOfReset_of_done (by rw [mu]; rfl)) ports (by rw [classifier]) (by rw [classifier])

theorem State.PhasesSound.answering (h : s.PhasesSound) {α : Type} {code : Byte} {parse : List Byte → Option α}
    {need : α → SessionNeed} {effect : State → Command → α → State} {fp : Footprint}
    (answers : ∀ (s : State) c a, s.Answers c (effect s c a)) (keeps : ∀ (s : State) c a, s.Keeps fp (effect s c a))
    (hp : fp.ports = false) (hc : fp.classifier = false) : (s.runCommand code parse need effect).PhasesSound :=
  h.runCommand fun s c a h out => h.answered out (answers s c a)
    (fun p => by unfold State.port; rw [(keeps s c a).ports hp]; exact .refl _) ((keeps s c a).classifier hc)

theorem State.PhasesSound.refuseUnknown (h : s.PhasesSound) : s.refuseUnknown.PhasesSound := by
  unfold State.refuseUnknown
  split
  · rename_i hb
    obtain ⟨idle, -, rest, -, rfl⟩ := State.beginCommand_eq _ _ _ _ hb
    exact (h.ofMu { s.mu with queue := rest } rfl).finish (Mu.outOfReset_of_none idle) _ _ _
  · exact h

theorem State.PhasesSound.portSet (h : s.PhasesSound) (out : s.mu.outOfReset) (c : Command) (a : PortSetParams) :
    (s.portSet c a).PhasesSound := by
  have set (p : PortId) {x : Port} (hx : (s.port p).Calmed x) (st : Status) (bytes : List Byte) :
      ((s.setPort p x).finish c st bytes).PhasesSound := (h.setPort p hx).finish out c st bytes
  unfold State.portSet
  split
  · exact h.finish out c _ _
  · rename_i p _
    dsimp only
    split
    · split
      · exact set p (.of_eq (by rfl) (by rfl) (by rfl)) _ _
      · exact set p (.of_eq (by rfl) (by rfl) (by rfl)) _ _
      · exact h.finish out c _ _
      · exact h.finish out c _ _
    · split
      · exact h.finish out c _ _
      all_goals exact set p (Port.disable_calmed _) _ _

theorem State.PhasesSound.poolSet (h : s.PhasesSound) (out : s.mu.outOfReset) (c : Command) (a : PoolSetParams) :
    (s.poolSet c a).PhasesSound := by
  have keeps := s.setThresholds_keeps a
  unfold State.poolSet
  split
  · exact ((h.same (keeps.samePhase' rfl rfl rfl rfl)).finish (by rw [keeps.mu rfl]; exact out) c _ _).arbitrate
  · exact h.finish out c _ _

theorem State.PhasesSound.onCommandLane (h : s.PhasesSound) (out : s.mu.outOfReset) (c : Command) (lane : Byte)
    (f : LaneId → State) (hf : ∀ l, (f l).PhasesSound) : (s.onCommandLane c lane f).PhasesSound := by
  unfold State.onCommandLane
  split
  · exact h.finish out c _ _
  · exact hf _

theorem State.PhasesSound.flushLane (h : s.PhasesSound) (out : s.mu.outOfReset) (c : Command) (l : LaneId) :
    (s.flushLane c l).PhasesSound := by
  unfold State.flushLane
  dsimp only
  split
  · exact (h.setLane l _).finish out c _ _
  · split
    · exact (h.setLane l _).finish out c _ _
    · exact ((h.setLane l _).setLane l _).finish out c _ _

theorem State.PhasesSound.laneFlush (h : s.PhasesSound) (out : s.mu.outOfReset) (c : Command) (lane : Byte) :
    (s.laneFlush c lane).PhasesSound := by
  refine h.onCommandLane out c lane _ fun l => ?_
  split
  · exact h.finish out c _ _
  all_goals exact (h.flushLane out c l).arbitrate

theorem State.PhasesSound.laneStop (h : s.PhasesSound) (out : s.mu.outOfReset) (c : Command) (lane : Byte) :
    (s.laneStop c lane).PhasesSound := by
  refine h.onCommandLane out c lane _ fun l => ?_
  have keeps := s.beginDrain_keeps l
  have bundle := ((s.setLane_sameLink l ((s.lane l).enterDraining l s.deviceTime)).trans (State.drainCheck_sameLink _ l)).bundle
  have drained : (s.beginDrain l).PhasesSound := h.same (keeps.samePhase rfl rfl rfl bundle)
  dsimp only
  split
  · exact h.finish out c _ _
  · exact h.finish out c _ _
  · exact (drained.finish (by rw [keeps.mu rfl]; exact out) c _ _).arbitrate
  · split
    · exact h.finish out c _ _
    · exact (h.setLane l _).finish out c _ _

theorem State.resetLane_sameLink (s : State) (l : LaneId) : s.SameLink (s.resetLane l) := by
  unfold State.resetLane
  split
  · exact s.cutFrame_sameLink.trans (State.disableLane_sameLink _ l)
  · exact s.disableLane_sameLink l

theorem State.PhasesSound.laneReset (h : s.PhasesSound) (out : s.mu.outOfReset) (c : Command) (lane : Byte) :
    (s.laneReset c lane).PhasesSound := by
  refine h.onCommandLane out c lane _ fun l => ?_
  have keeps := s.resetLane_keeps l
  have reset : (s.resetLane l).PhasesSound := h.same (keeps.samePhase rfl rfl rfl (s.resetLane_sameLink l).bundle)
  split
  · exact h.finish out c _ _
  all_goals exact reset.finish (by rw [keeps.mu rfl]; exact out) c _ _

theorem State.PhasesSound.openSession (h : s.PhasesSound) (out : s.mu.outOfReset) (c : Command) (a : Unit) :
    (s.openSession c a).PhasesSound := by
  have opened : (s.takeEpoch c.epoch).PhasesSound := h.same ⟨fun _ => .refl _, rfl, rfl, rfl, id⟩
  unfold State.openSession
  split
  · exact (opened.finish out c _ _).arbitrate
  · exact h.finish out c _ _

theorem State.PhasesSound.noticeRearm (h : s.PhasesSound) (out : s.mu.outOfReset) (c : Command) (a : NoticeRearmParams) :
    (s.noticeRearm c a).PhasesSound := by
  have rearmed (u : NoticeUnit) : ({ s with notices := u } : State).PhasesSound := h.same ⟨fun _ => .refl _, rfl, rfl, rfl, id⟩
  unfold State.noticeRearm
  split
  · exact h.finish out c _ _
  · dsimp only
    exact ((rearmed _).finish (by exact out) c _ _).arbitrate

/-! ### DATAPATH_RESET and READ_COUNTERS -/

/-- Phases 1 and 2: every port is marked and discards, and the Classifier has the abandon request or is IDLE. -/
theorem State.PhasesSound.datapathReset (h : s.PhasesSound) (out : s.mu.outOfReset) (c : Command) (a : Unit) :
    (s.datapathReset c a).PhasesSound := by
  obtain ⟨out1, -, -⟩ := State.flags_outOfReset out
  have port (p : PortId) : s.resetPorts.port p = (s.port p).resetStart := State.port_map _ p
  have marked {t : State} (ports : t.ports = s.resetPorts.ports) (p : PortId) :
      (t.port p).resetMark = true ∧ (t.port p).complete = [] ∧ (t.port p).accepting = false := by
    have : t.port p = (s.port p).resetStart := by rw [← port p]; unfold State.port; rw [ports]
    rw [this]
    exact ⟨rfl, rfl, (s.port p).discardFrames_quiet⟩
  unfold State.datapathReset
  dsimp only
  split
  · rename_i idle
    refine ⟨fun p => (marked ?_ p).1, fun p _ => (marked ?_ p).2, ?_, fun requested => ?_, fun _ _ => idle, nofun⟩
    · rfl
    · rfl
    · exact h.not_abandon out1
    · exact absurd ((h.not_abandon out1).symm.trans requested) (by decide)
  · rename_i working
    refine ⟨fun p => (marked ?_ p).1, fun p _ => (marked ?_ p).2, rfl, fun _ => ?_, nofun, nofun⟩
    · rfl
    · rfl
    · exact Option.isSome_iff_exists.mpr ⟨_, working⟩

theorem State.PhasesSound.phase3 (h : s.PhasesSound) : s.phase3.PhasesSound := by
  unfold State.phase3
  split
  · rename_i c executing
    have keeps := s.cutFrame_keeps
    have now (p : Progress) : (s.cutFrame.mu.setProgress p).executing = some ⟨c, p⟩ := by
      simp [Mu.setProgress, keeps.mu rfl, executing]
    have flags : s.resetAtPorts = true ∧ s.resetAbandoning = false := by
      unfold State.resetAtPorts State.resetAbandoning
      rw [executing]
      exact ⟨rfl, rfl⟩
    have ports (p : PortId) : (s.port p).Calmed (s.cutFrame.port p) := by
      unfold State.port; rw [keeps.ports rfl]; exact .refl _
    dsimp only
    split
    · refine h.of_flags ports (by rw [keeps.classifier rfl]) (by rw [keeps.classifier rfl]) ?_ ?_ fun past => ?_
      · rw [flags.1]; unfold State.resetAtPorts; rw [now]
      · rw [flags.2]; unfold State.resetAbandoning; rw [now]
      · unfold State.resetPastWire at past; rw [now] at past; cases past
    · rename_i free
      refine h.of_flags ports (by rw [keeps.classifier rfl]) (by rw [keeps.classifier rfl]) ?_ ?_ fun _ => ?_
      · rw [flags.1]; unfold State.resetAtPorts; rw [now]
      · rw [flags.2]; unfold State.resetAbandoning; rw [now]
      · exact s.cutFrame_sameLink.bundle (by simpa using free)
  · exact h

/-- Phase 7 ends the reset at the ports, and phase 8 is after the wire. -/
theorem State.PhasesSound.phase4 (h : s.PhasesSound) : s.phase4.PhasesSound := by
  unfold State.phase4
  split
  · rename_i c aborted executing
    have keeps := s.disableLanes_keeps.andThen s.disableLanes.resetEnds_keeps
    have flags : s.resetAtPorts = true ∧ s.resetAbandoning = false ∧ s.resetPastWire = true := by
      unfold State.resetAtPorts State.resetAbandoning State.resetPastWire
      rw [executing]
      exact ⟨rfl, rfl, rfl⟩
    have abandon : s.classifier.abandon = false := h.abandon.trans flags.2.1
    have now (r : Response) : (s.disableLanes.resetEnds.mu.setProgress (.resetDone r)).executing = some ⟨c, .resetDone r⟩ := by
      simp [Mu.setProgress, keeps.mu rfl, executing]
    have atPorts (r : Response) :
        ({ s.disableLanes.resetEnds with mu := s.disableLanes.resetEnds.mu.setProgress (.resetDone r) } : State).resetAtPorts = false := by
      unfold State.resetAtPorts; rw [now]
    have classifier : s.disableLanes.resetEnds.classifier = s.classifier := keeps.classifier rfl
    refine ⟨fun p => ?_, fun p past => ?_, ?_, fun requested => ?_, fun past => ?_, fun _ => ?_⟩
    · rw [atPorts]
      exact congrArg Port.resetMark (State.port_map (s := s.disableLanes) Port.resetEnd p)
    · rw [atPorts] at past; cases past
    · refine (congrArg Classifier.abandon classifier).trans (abandon.trans ?_)
      unfold State.resetAbandoning; rw [now]
    · exact absurd (((congrArg Classifier.abandon classifier).trans abandon).symm.trans requested) (by decide)
    · rw [atPorts] at past; cases past
    · exact s.disableLanes_sameLink.bundle (h.wire flags.2.2)
  · exact h

theorem State.PhasesSound.clearOwner (h : s.PhasesSound) (o : CounterOwner) : (s.clearOwner o).PhasesSound := by
  cases o with
  | port p => exact h.same (s.countPort_samePhase p fun _ => {})
  | _ => exact h.same ⟨fun _ => .refl _, rfl, rfl, rfl, id⟩

theorem State.clearOwner_executing (s : State) (o : CounterOwner) : (s.clearOwner o).mu.executing = s.mu.executing := by
  cases o <;> rfl

theorem State.PhasesSound.readOwner (h : s.PhasesSound) (out : s.mu.outOfReset) (c : Command) (clear : Bool)
    (left : List CounterOwner) (result : List Byte) : (s.readOwner c clear left result).PhasesSound := by
  have after (o : CounterOwner) : (if clear then s.clearOwner o else s).PhasesSound
      ∧ (if clear then s.clearOwner o else s).mu.outOfReset := by
    cases clear with
    | true => exact ⟨h.clearOwner o, fun x hx => out x ((s.clearOwner_executing o).symm.trans hx)⟩
    | false => exact ⟨h, out⟩
  unfold State.readOwner
  split
  · exact h.finish out c _ _
  · rename_i o _
    dsimp only
    split
    · exact (after o).1.finish (after o).2 c _ _
    · refine (after o).1.outOfReset (after o).2 (fun x hx => ?_) (fun _ => .refl _) rfl rfl
      cases hx
      exact .inr ⟨_, _, _, rfl⟩

theorem State.PhasesSound.stepReadCounters (h : s.PhasesSound) : s.stepReadCounters.PhasesSound := by
  unfold State.stepReadCounters
  split
  · rename_i executing
    exact h.readOwner (fun x hx => .inr ⟨_, _, _, by rw [executing] at hx; cases hx; rfl⟩) _ _ _ _
  · refine h.runCommand fun s c a h out => ?_
    unfold State.readCounters
    split
    · exact h.readOwner out _ _ _ _
    · exact h.finish out c _ _

/-! ### Every command -/

theorem State.PhasesSound.exec {c : Instr} (hs : s.PhasesSound) (h : exec c s = .next t) (hc : ofPins c = false) :
    t.PhasesSound := by
  cases c with
  | powerOnReset | resetRelease | lineSignalGained | lineSignalLost => cases hc
  | fieldStartDelimiter p =>
    rw [exec_fieldStartDelimiter] at h
    exact onPort_keeps h hs fun q => hs.setPort q (Port.startFrame_calmed _)
  | fieldByteArrival p b => rw [exec_fieldByteArrival] at h; exact onPort_keeps h hs fun q => hs.fieldByte q b
  | fieldEndDelimiter p => rw [exec_fieldEndDelimiter] at h; exact onPort_keeps h hs hs.fieldEnd
  | frameTake => rw [exec_frameTake] at h; exact running_keeps h hs hs.takeFrame
  | lookup => rw [exec_lookup] at h; exact running_keeps h hs hs.lookupStage
  | ruleSearch => rw [exec_ruleSearch] at h; exact running_keeps h hs hs.searchStage
  | learnInsert => rw [exec_learnInsert] at h; exact running_keeps h hs hs.learnStage
  | laneResolution => rw [exec_laneResolution] at h; exact running_keeps h hs hs.resolveStage
  | placement => rw [exec_placement] at h; exact running_keeps h hs hs.placeStage
  | streamUpdate => rw [exec_streamUpdate] at h; exact running_keeps h hs hs.updateStage
  | handoff l => rw [exec_handoff] at h; exact onLane_keeps h hs hs.takeHandoff
  | retransmitTimerExpiry l => rw [exec_retransmitTimerExpiry] at h; exact onLane_keeps h hs hs.retransmitExpiry
  | laneUpdate => rw [exec_laneUpdate] at h; exact running_keeps h hs hs.takeUpdate
  | sendStart => rw [exec_sendStart] at h; exact running_keeps h hs hs.takeSendStart
  | noticeBatchRequest => rw [exec_noticeBatchRequest] at h; exact running_keeps h hs hs.takeBatchRequest
  | linkUp => rw [exec_linkUp] at h; exact running_keeps h hs hs.gainLock
  | linkDown => rw [exec_linkDown] at h; exact running_keeps h hs hs.loseLock
  | trunkStartDelimiter =>
    rw [exec_trunkStartDelimiter] at h
    refine running_keeps h hs (hs.ofTrunk _ ?_)
    unfold Trunk.startInbound
    split <;> exact id
  | trunkByteArrival b =>
    rw [exec_trunkByteArrival] at h
    refine running_keeps h hs (hs.ofTrunk _ ?_)
    unfold Trunk.inboundByte
    split <;> exact id
  | trunkAbortDelimiter => rw [exec_trunkAbortDelimiter] at h; exact running_keeps h hs (hs.ofTrunk _ id)
  | trunkEndDelimiter => rw [exec_trunkEndDelimiter] at h; exact running_keeps h hs hs.inboundEnd
  | outboundFrameEnd =>
    rw [exec_outboundFrameEnd] at h
    refine running_keeps h hs ?_
    unfold State.frameOutEnds
    split
    · exact hs.frameEnds
    · exact hs.frameEnds
    · exact hs
    · exact hs
  | bundleFrameEnd =>
    rw [exec_bundleFrameEnd] at h
    refine running_keeps h hs ?_
    unfold State.bundleFrameEnds
    split
    · exact hs.frameEnds
    · exact hs
  | cutFrameEnd => rw [exec_cutFrameEnd] at h; exact running_keeps h hs hs.cutFrameEnds
  | commandArrival => rw [exec_commandArrival] at h; exact running_keeps h hs hs.takeArrival
  | commandEnd => rw [exec_commandEnd] at h; exact running_keeps h hs hs.commandEnds
  | unknownCommandCode => rw [exec_unknownCommandCode] at h; exact running_keeps h hs hs.refuseUnknown
  | portSet => rw [exec_portSet] at h; exact running_keeps h hs (hs.runCommand fun _ c a h out => h.portSet out c a)
  | streamWrite =>
    rw [exec_streamWrite] at h
    exact running_keeps h hs (hs.answering State.streamWrite_answers State.streamWrite_keeps rfl rfl)
  | streamDelete =>
    rw [exec_streamDelete] at h
    exact running_keeps h hs (hs.answering State.streamDelete_answers State.streamDelete_keeps rfl rfl)
  | streamRead =>
    rw [exec_streamRead] at h
    exact running_keeps h hs (hs.answering State.streamRead_answers State.streamRead_keeps rfl rfl)
  | ruleStage =>
    rw [exec_ruleStage] at h
    exact running_keeps h hs (hs.answering State.ruleStage_answers State.ruleStage_keeps rfl rfl)
  | ruleApply =>
    rw [exec_ruleApply] at h
    exact running_keeps h hs (hs.answering State.ruleApply_answers (fun s c _ => s.rules_finish_keeps c _ _ _) rfl rfl)
  | ruleRead =>
    rw [exec_ruleRead] at h
    exact running_keeps h hs (hs.answering State.ruleRead_answers State.ruleRead_keeps rfl rfl)
  | classWrite =>
    rw [exec_classWrite] at h
    exact running_keeps h hs (hs.answering State.classWrite_answers State.classWrite_keeps rfl rfl)
  | spreadWrite =>
    rw [exec_spreadWrite] at h
    exact running_keeps h hs (hs.answering State.spreadWrite_answers State.spreadWrite_keeps rfl rfl)
  | mapRead =>
    rw [exec_mapRead] at h
    exact running_keeps h hs (hs.answering State.mapRead_answers (fun s c _ => s.finish_keeps c _ _) rfl rfl)
  | laneConfig =>
    rw [exec_laneConfig] at h
    exact running_keeps h hs (hs.answering State.laneConfig_answers State.laneConfig_keeps rfl rfl)
  | laneStart =>
    rw [exec_laneStart] at h
    exact running_keeps h hs (hs.answering State.laneStart_answers State.laneStart_keeps rfl rfl)
  | readStatus =>
    rw [exec_readStatus] at h
    exact running_keeps h hs (hs.answering State.readStatus_answers State.readStatus_keeps rfl rfl)
  | poolSet => rw [exec_poolSet] at h; exact running_keeps h hs (hs.runCommand fun _ c a h out => h.poolSet out c a)
  | laneFlush => rw [exec_laneFlush] at h; exact running_keeps h hs (hs.runCommand fun _ c a h out => h.laneFlush out c a)
  | laneStop => rw [exec_laneStop] at h; exact running_keeps h hs (hs.runCommand fun _ c a h out => h.laneStop out c a)
  | laneReset => rw [exec_laneReset] at h; exact running_keeps h hs (hs.runCommand fun _ c a h out => h.laneReset out c a)
  | openSession => rw [exec_openSession] at h; exact running_keeps h hs (hs.runCommand fun _ c a h out => h.openSession out c a)
  | closeSession =>
    rw [exec_closeSession] at h
    exact running_keeps h hs (hs.runCommand fun s c a h out =>
      (h.ofMu { s.mu with epoch := none } rfl).finish out c .ok (enc32 c.epoch))
  | noticeRearm => rw [exec_noticeRearm] at h; exact running_keeps h hs (hs.runCommand fun _ c a h out => h.noticeRearm out c a)
  | datapathReset =>
    rw [exec_datapathReset] at h
    exact running_keeps h hs (hs.runCommand fun _ c a h out => h.datapathReset out c a)
  | resetPhase3 => rw [exec_resetPhase3] at h; exact running_keeps h hs hs.phase3
  | resetPhase4 => rw [exec_resetPhase4] at h; exact running_keeps h hs hs.phase4
  | readCounters => rw [exec_readCounters] at h; exact running_keeps h hs hs.stepReadCounters
  | _ => exact hs.same ((exec_keepsFootprint h rfl).samePhase' rfl rfl rfl rfl)

end

/-- Settles O58: each phase is entered by one event, which sets what the phase says of the ports, the Classifier and the wire. -/
theorem everyStepKeepsResetPhasesSound : Obligations.EveryStepKeepsResetPhasesSound := by
  intro s t hd hs h
  have same {s t : State} (h : s.PhasesSound) (ports : t.ports = s.ports) (classifier : t.classifier = s.classifier)
      (mu : t.mu = s.mu) (bundle : t.trunk.bundleOnWire = s.trunk.bundleOnWire) : t.PhasesSound :=
    h.same ⟨fun p => by unfold State.port; rw [ports]; exact .refl _, by rw [classifier], by rw [classifier], by rw [mu], by rw [bundle]; exact id⟩
  refine step_keeps (P := State.PhasesSound) (fun _ _ h => same h rfl rfl rfl rfl) (fun s => ?_)
    (fun _ _ h => same h rfl rfl rfl rfl) (fun _ p signal h => h.lineChanges p signal) (fun s h => ?_)
    (fun c s t hs h hc => hs.exec h hc) hd hs h
  · exact ⟨fun p => by rw [s.powerOn_port]; rfl, nofun, rfl, nofun, nofun, nofun⟩
  · unfold State.tick
    split
    · exact same h rfl rfl rfl rfl
    · exact h

end Sys2Proof.Machine

/-! Proof of O59: the lanes, their timers, and the values of the records in classification. -/

namespace Sys2Proof.Machine

/-! ## The records of the frame in progress -/

/-- The values of the records in classification are of at most 64 bytes (R49). -/
def State.ValuesOk (s : State) : Prop := ∀ f, s.classifier.frame = some f → ∀ r ∈ f.records, r.value.length ≤ 64

/-- A frame in progress has the records that a frame in progress had. -/
def State.SameRecords (s t : State) : Prop :=
  ∀ g, t.classifier.frame = some g → ∃ f, s.classifier.frame = some f ∧ g.records = f.records

/-- A record that is read has a value of at most 64 bytes (R49). -/
theorem parseRecords_values {n : Nat} {bytes : List Byte} {records : List FieldRecord} (h : parseRecords n bytes = some records) :
    ∀ r ∈ records, r.value.length ≤ 64 := by
  fun_induction parseRecords n bytes generalizing records with
  | case1 => cases h; nofun
  | case2 => cases h
  | case3 => cases h
  | case4 n t1 t0 s3 s2 s1 s0 len rest fits rs parsed ih =>
    cases h
    intro r hr
    rcases List.mem_cons.mp hr with rfl | hr
    · have short : len.toNat ≤ 64 := Nat.not_lt.mp (not_or.mp fits).1
      exact (List.length_take_le _ _).trans short
    · exact ih parsed r hr
  | case5 => cases h
  | case6 => cases h

theorem parseFieldFrame_values {bytes : List Byte} {station : Station} {records : List FieldRecord}
    (h : parseFieldFrame bytes = some (station, records)) : ∀ r ∈ records, r.value.length ≤ 64 := by
  unfold parseFieldFrame at h
  split at h
  · split at h
    · cases h
    · obtain ⟨rs, parsed, same⟩ := Option.map_eq_some_iff.mp h
      cases same
      exact parseRecords_values parsed
  · cases h

section
variable {s t u : State}

theorem State.SameRecords.refl (s : State) : s.SameRecords s := fun g hg => ⟨g, hg, rfl⟩

theorem State.SameRecords.of_eq (h : t.classifier.frame = s.classifier.frame) : s.SameRecords t := fun g hg => ⟨g, h ▸ hg, rfl⟩

theorem State.SameRecords.trans (h : s.SameRecords t) (h' : t.SameRecords u) : s.SameRecords u := by
  intro g hg
  obtain ⟨f, hf, same⟩ := h' g hg
  obtain ⟨e, he, same'⟩ := h f hf
  exact ⟨e, he, same.trans same'⟩

theorem State.ValuesOk.same (h : s.ValuesOk) (k : s.SameRecords t) : t.ValuesOk := by
  intro g hg
  obtain ⟨f, hf, same⟩ := k g hg
  rw [same]
  exact h f hf

theorem State.Keeps.sameRecords {fp : Footprint} (k : s.Keeps fp t) (hc : fp.classifier = false) : s.SameRecords t :=
  .of_eq (by rw [k.classifier hc])

theorem State.arbitrate_sameRecords (s : State) : s.SameRecords s.arbitrate := s.arbitrate_keeps.sameRecords rfl

variable {f : FrameInProgress} (working : s.classifier.frame = some f)
include working

theorem State.setStage_sameRecords (stage : Stage) : s.SameRecords (s.setStage f stage) := by
  intro g hg
  cases hg
  exact ⟨f, working, rfl⟩

theorem State.recordEnds_sameRecords : s.SameRecords (s.recordEnds f) := by
  unfold State.recordEnds
  split
  · intro g hg
    unfold State.endFrame at hg
    dsimp only at hg
    split at hg <;> cases hg
  · intro g hg
    cases hg
    exact ⟨f, working, rfl⟩

theorem State.routeEnds_sameRecords (route : Route) (o : UpdateOutcome) : s.SameRecords (s.routeEnds f route o) := by
  unfold State.routeEnds
  split
  · exact State.setStage_sameRecords working _
  · exact State.recordEnds_sameRecords working

theorem State.judgeHit_sameRecords (snap : Snapshot) (r : FieldRecord) : s.SameRecords (s.judgeHit f snap r) := by
  have stage (x : Classifier) (g : Stage) : s.SameRecords (({ s with classifier := x } : State).setStage f g) := by
    intro g hg
    cases hg
    exact ⟨f, working, rfl⟩
  unfold State.judgeHit
  split
  · exact stage _ _
  · exact stage _ _
  · dsimp only
    split
    · exact State.setStage_sameRecords working _
    · exact stage _ _

end

section
variable (s : State)

theorem State.lookupStage_sameRecords : s.SameRecords s.lookupStage := by
  unfold State.lookupStage
  split
  · rename_i working
    split
    · split
      · exact State.judgeHit_sameRecords working _ _
      · exact State.setStage_sameRecords working _
    · exact .refl s
  · exact .refl s

theorem State.searchStage_sameRecords : s.SameRecords s.searchStage := by
  unfold State.searchStage
  split
  · rename_i f working
    split
    · split
      · exact (State.recordEnds_sameRecords (s := (s.countPort f.port _).raise _) (by exact working)).trans
          (State.arbitrate_sameRecords _)
      · dsimp only
        split
        · exact State.recordEnds_sameRecords (s := s.countPort f.port _) (by exact working)
        · split <;> exact State.setStage_sameRecords working _
    · exact .refl s
  · exact .refl s

theorem State.learnStage_sameRecords : s.SameRecords s.learnStage := by
  unfold State.learnStage
  split
  · rename_i f working
    have table (x : StreamTable) : ({ s with streams := x } : State).classifier.frame = some f := working
    split
    · dsimp only
      split
      · exact State.judgeHit_sameRecords (table _) _ _
      · exact State.judgeHit_sameRecords (table _) _ _
      · exact (State.setStage_sameRecords (s := State.raise { s with streams := _ } _) (by exact working) _).trans
          (State.arbitrate_sameRecords _)
    · exact .refl s
  · exact .refl s

theorem State.resolveStage_sameRecords : s.SameRecords s.resolveStage := by
  unfold State.resolveStage
  split
  · rename_i f working
    have counted (x : Classifier) (route : Route) (same : x.frame = s.classifier.frame) :
        s.SameRecords (({ s with classifier := x } : State).routeEnds f route .dropped) :=
      (State.SameRecords.of_eq same).trans (State.routeEnds_sameRecords (by exact same.trans working) _ _)
    split
    · split
      · exact State.setStage_sameRecords working _
      · exact counted _ _ rfl
      · exact counted _ _ rfl
    · exact .refl s
  · exact .refl s

theorem State.placeStage_sameRecords : s.SameRecords s.placeStage := by
  unfold State.placeStage
  split
  · rename_i f working
    split
    · have same (l : LaneId) (q : PlacementRequest) : (s.place l q).1.classifier = s.classifier := (s.place_keeps l q).classifier rfl
      exact ((State.SameRecords.of_eq (by rw [same])).trans (State.routeEnds_sameRecords (by rw [same]; exact working) _ _)).trans
        (State.arbitrate_sameRecords _)
    · exact .refl s
  · exact .refl s

theorem State.updateStage_sameRecords : s.SameRecords s.updateStage := by
  unfold State.updateStage
  split
  · rename_i f working
    split
    · exact State.recordEnds_sameRecords (s := { s with streams := _ }) (by exact working)
    · exact .refl s
  · exact .refl s

theorem State.datapathReset_sameRecords (c : Command) (a : Unit) : s.SameRecords (s.datapathReset c a) := by
  unfold State.datapathReset
  dsimp only
  split <;> exact .of_eq rfl

theorem State.clearOwner_sameRecords (o : CounterOwner) : s.SameRecords (s.clearOwner o) := by
  cases o <;> exact .of_eq rfl

theorem State.readOwner_sameRecords (c : Command) (clear : Bool) (left : List CounterOwner) (result : List Byte) :
    s.SameRecords (s.readOwner c clear left result) := by
  cases left with
  | nil => exact .of_eq rfl
  | cons o rest =>
    rw [State.readOwner_cons]
    cases clear with
    | false => exact .of_eq rfl
    | true => exact (s.clearOwner_sameRecords o).trans (.of_eq rfl)

theorem State.runCommand_sameRecords {α : Type} {code : Byte} {parse : List Byte → Option α} {need : α → SessionNeed}
    {effect : State → Command → α → State} (taken : ∀ (s : State) c a, s.SameRecords (effect s c a)) :
    s.SameRecords (s.runCommand code parse need effect) :=
  State.runCommand_cases s code parse need effect s.SameRecords (.refl s) (fun _ _ _ _ _ => .of_eq rfl)
    fun _ _ _ _ _ _ _ _ => (State.SameRecords.of_eq (by rfl)).trans (taken _ _ _)

theorem State.stepReadCounters_sameRecords : s.SameRecords s.stepReadCounters := by
  unfold State.stepReadCounters
  split
  · exact s.readOwner_sameRecords _ _ _ _
  · refine s.runCommand_sameRecords fun s c a => ?_
    unfold State.readCounters
    split
    · exact s.readOwner_sameRecords _ _ _ _
    · exact .of_eq rfl

end

/-- The one event that brings records into classification is the take of a frame. -/
theorem State.ValuesOk.takeFrame {s : State} (h : s.ValuesOk) : s.takeFrame.ValuesOk := by
  unfold State.takeFrame
  split
  · rename_i idle _
    split
    · dsimp only
      split
      · rename_i parsed
        intro g hg
        cases hg
        exact parseFieldFrame_values parsed
      · intro g hg
        exact absurd (idle.symm.trans hg) (by nofun)
    · exact h
  · exact h

theorem State.ValuesOk.exec {s t : State} {c : Instr} (hs : s.ValuesOk) (h : exec c s = .next t) (hc : ofPins c = false) :
    t.ValuesOk := by
  cases c with
  | powerOnReset | resetRelease | lineSignalGained | lineSignalLost => cases hc
  | frameTake => rw [exec_frameTake] at h; exact running_keeps h hs hs.takeFrame
  | lookup => rw [exec_lookup] at h; exact running_keeps h hs (hs.same s.lookupStage_sameRecords)
  | ruleSearch => rw [exec_ruleSearch] at h; exact running_keeps h hs (hs.same s.searchStage_sameRecords)
  | learnInsert => rw [exec_learnInsert] at h; exact running_keeps h hs (hs.same s.learnStage_sameRecords)
  | laneResolution => rw [exec_laneResolution] at h; exact running_keeps h hs (hs.same s.resolveStage_sameRecords)
  | placement => rw [exec_placement] at h; exact running_keeps h hs (hs.same s.placeStage_sameRecords)
  | streamUpdate => rw [exec_streamUpdate] at h; exact running_keeps h hs (hs.same s.updateStage_sameRecords)
  | datapathReset =>
    rw [exec_datapathReset] at h
    exact running_keeps h hs (hs.same (s.runCommand_sameRecords State.datapathReset_sameRecords))
  | readCounters => rw [exec_readCounters] at h; exact running_keeps h hs (hs.same s.stepReadCounters_sameRecords)
  | _ => exact hs.same ((exec_keepsFootprint h rfl).sameRecords rfl)

end Sys2Proof.Machine

namespace Sys2Proof.Machine

section
variable {s t : State}

/-! ## The lanes, event by event -/

theorem State.LanesOk.keeps {fp : Footprint} (h : s.LanesOk) (k : s.Keeps fp t) (hl : fp.lanes = false) (hu : fp.link = false) :
    t.LanesOk := h.of_eq (k.lanes hl) (k.link hu)

/-- The encoded form of a record in classification is of at most 80 bytes (R49, R91). -/
theorem Route.request_size (route : Route) (k : Key) {r : FieldRecord} (hr : r.value.length ≤ 64) :
    (route.request k r).record.size ≤ 80 := by
  cases route <;> simp only [Route.request, PlacedRecord.size] <;> omega

theorem State.LanesOk.placeStage (h : s.LanesOk) (values : s.ValuesOk) : s.placeStage.LanesOk := by
  unfold State.placeStage
  split
  · rename_i f working
    split
    · rename_i l r _ current
      have size := values f working r (List.mem_of_getElem? current)
      exact ((h.place l _ (Route.request_size _ _ size)).keeps (State.routeEnds_keeps _ _ _ _) rfl rfl).arbitrate
    · exact h
  · exact h

theorem State.LanesOk.takeHandoff (h : s.LanesOk) (l : LaneId) :
    (if (s.lane l).offered.isSome then (s.setLane l ((s.lane l).settle l)).arbitrate else s).LanesOk := by
  split
  · exact (h.settled l).arbitrate
  · exact h

theorem State.LanesOk.close (h : s.LanesOk) (l : LaneId) (now : Word) (reason : CloseReason) :
    (s.setLane l ((s.lane l).close now reason)).LanesOk :=
  h.setLane l ((h l).1.close now reason) ((h l).2.close now reason)

theorem State.LanesOk.timerExpiry (h : s.LanesOk) (timer : Assembler → Timer) (reason : CloseReason) (l : LaneId) :
    (if (timer (s.lane l).asm).due s.deviceTime then s.setLane l ((s.lane l).close s.deviceTime reason) else s).LanesOk := by
  split
  · exact h.close l _ reason
  · exact h

theorem State.LanesOk.takeUpdate (h : s.LanesOk) : s.takeUpdate.LanesOk := by
  have handed (x : List Handover) : ({ s with trunk := { s.trunk with handed := x } } : State).LanesOk := h.of_eq rfl rfl
  have counted {s : State} (h : s.LanesOk) (f : TrunkCounters → TrunkCounters) : (s.countTrunk f).LanesOk := h.of_eq rfl rfl
  unfold State.takeUpdate
  split
  · exact h
  · exact h
  · rename_i u rest _
    dsimp only
    have applied (inService : (s.lane u.lane).ldu.state ≠ .disabled) :
        (State.applyUpdate { s with trunk := { s.trunk with handed := rest } } u).arbitrate.LanesOk :=
      ((handed rest).applyUpdate u inService).arbitrate
    split
    · exact counted (handed _) _
    · split
      · exact counted (handed _) _
      all_goals
        rename_i e
        exact applied (by rw [e]; nofun)

theorem State.LanesOk.takeSendStart (h : s.LanesOk) : s.takeSendStart.LanesOk := by
  have asked (x : ArbiterRequest) : ({ s with trunk := { s.trunk with request := x } } : State).LanesOk := h.of_eq rfl rfl
  unfold State.takeSendStart
  split
  · dsimp only
    split
    · rename_i started
      exact (asked _).sendStartAt _ started
    · exact (asked _).arbitrate
  · exact h
  · exact h

theorem Timer.not_stopped_of_due {t : Timer} {now : Word} (h : t.due now = true) : t ≠ .stopped := by
  rintro rfl
  cases h

/-- A retransmit timer that reached its expiry runs, so its lane is OPEN or DRAINING (R130, R131). -/
theorem State.LanesOk.retransmitExpiry (h : s.LanesOk) (l : LaneId) : (s.retransmitExpiry l).LanesOk := by
  unfold State.retransmitExpiry
  split
  · rename_i due
    obtain ⟨-, inService, -⟩ := (Lane.mayRun_iff _ _).mp ((h l).2 (Timer.not_stopped_of_due due))
    have expired := h.setLane l ((h l).1.expire s.trunk.linkUp s.deviceTime inService) ((h l).2.expire s.deviceTime)
    dsimp only
    split
    · exact (expired.keeps (State.notify_keeps _ _ _) rfl rfl).arbitrate
    · exact expired.arbitrate
  · exact h

theorem State.lane_map (g : Lane → Lane) {s t : State} (h : t.lanes = s.lanes.map g) (l : LaneId) : t.lane l = g (s.lane l) := by
  simp [State.lane, h]

theorem State.LanesOk.gainLock (h : s.LanesOk) : s.gainLock.LanesOk := by
  unfold State.gainLock
  split
  · exact h
  · rename_i down
    refine State.LanesOk.arbitrate fun l => ?_
    rw [State.lane_map (Lane.linkUp s.deviceTime) (s := s) (by rfl) l]
    have timer := (h l).2
    rw [Bool.eq_false_iff.mpr down] at timer
    exact ⟨(h l).1.linkUp _, timer.linkUp _⟩

theorem State.LanesOk.loseLock (h : s.LanesOk) : s.loseLock.LanesOk := by
  have lost : s.lockLost.LanesOk := by
    intro l
    have same : s.clearWire.lane l = s.lane l := by unfold State.lane; rw [s.clearWire_keeps.lanes rfl]
    rw [State.lane_map Lane.linkDown (s := s.clearWire) (by rfl) l, same]
    exact ⟨(h l).1.linkDown, .linkDown _⟩
  exact s.loseLock_cases State.LanesOk (fun _ => h) (fun _ => lost) fun c r _ _ => lost.keeps (State.endCommand_keeps _ c r) rfl rfl

theorem State.LanesOk.phase3 (h : s.LanesOk) : s.phase3.LanesOk := by
  unfold State.phase3
  split
  · exact h.cutFrame.of_eq rfl rfl
  · exact h

theorem State.LanesOk.phase4 (h : s.LanesOk) : s.phase4.LanesOk := by
  unfold State.phase4
  split
  · exact ((h.disableAll _).keeps (State.resetEnds_keeps _) rfl rfl).of_eq rfl rfl
  · exact h

theorem State.LanesOk.tick (h : s.LanesOk) : s.tick.LanesOk := by
  unfold State.tick
  split
  · intro l
    rw [State.lane_map (Lane.tick (s.deviceTime + 1)) (s := s) (by rfl) l]
    exact ⟨(h l).1.tick _, (h l).2.tick _⟩
  · exact h

/-! ## The lane commands -/

theorem State.LanesOk.finish (h : s.LanesOk) (c : Command) (st : Status) (bytes : List Byte) : (s.finish c st bytes).LanesOk :=
  h.of_eq rfl rfl

theorem State.LanesOk.runCommand (h : s.LanesOk) {α : Type} {code : Byte} {parse : List Byte → Option α} {need : α → SessionNeed}
    {effect : State → Command → α → State} (taken : ∀ (s : State) c a, s.LanesOk → (effect s c a).LanesOk) :
    (s.runCommand code parse need effect).LanesOk :=
  State.runCommand_cases s code parse need effect State.LanesOk h (fun _ _ _ _ _ => h.of_eq rfl rfl)
    fun _ _ _ _ _ _ _ _ => taken _ _ _ (h.of_eq rfl rfl)

theorem State.LanesOk.onCommandLane (h : s.LanesOk) (c : Command) (lane : Byte) {f : LaneId → State} (hf : ∀ l, (f l).LanesOk) :
    (s.onCommandLane c lane f).LanesOk := by
  unfold State.onCommandLane
  split
  · exact h.finish c _ _
  · exact hf _

theorem State.LanesOk.flushLane (h : s.LanesOk) (c : Command) (l : LaneId) : (s.flushLane c l).LanesOk := by
  have settled := h.settled l
  unfold State.flushLane
  dsimp only
  split
  · exact settled.finish c _ _
  · split
    · exact settled.finish c _ _
    · exact (settled.setLane l ((settled l).1.closeNow _ _) ((settled l).2.closeNow _ _)).finish c _ _

theorem State.LanesOk.laneFlush (h : s.LanesOk) (c : Command) (lane : Byte) : (s.laneFlush c lane).LanesOk := by
  refine h.onCommandLane c lane fun l => ?_
  split
  · exact h.finish c _ _
  all_goals exact (h.flushLane c l).arbitrate

theorem State.LanesOk.laneConfig (h : s.LanesOk) (c : Command) (a : LaneConfigParams) : (s.laneConfig c a).LanesOk := by
  refine h.onCommandLane c a.lane fun l => ?_
  split
  · exact h.finish c _ _
  · exact h.finish c _ _
  · exact h.finish c _ _
  · rename_i disabled
    split
    · rename_i ranges
      exact (h.setLane l ((h l).1.configured disabled a ranges) ((h l).2.of_eq rfl rfl id)).finish c _ _
    · exact h.finish c _ _

theorem State.LanesOk.laneStart (h : s.LanesOk) (c : Command) (lane : Byte) : (s.laneStart c lane).LanesOk := by
  refine h.onCommandLane c lane fun l => ?_
  split
  · rename_i disabled
    exact (h.setLane l ((h l).1.started disabled) ((h l).2.started disabled)).finish c _ _
  all_goals exact h.finish c _ _

theorem State.LanesOk.laneStop (h : s.LanesOk) (c : Command) (lane : Byte) : (s.laneStop c lane).LanesOk := by
  refine h.onCommandLane c lane fun l => ?_
  dsimp only
  split
  · exact h.finish c _ _
  · exact h.finish c _ _
  · rename_i isOpen
    exact ((h.beginDrain l isOpen).finish c _ _).arbitrate
  · rename_i stalled
    split
    · exact h.finish c _ _
    · have requested : ({ s.lane l with ldu := { (s.lane l).ldu with drainRequested := true } } : Lane).Sound l :=
        { (h l).1 with drain := fun _ => stalled }
      exact (h.setLane l requested ((h l).2.of_eq rfl rfl id)).finish c _ _

theorem State.LanesOk.laneReset (h : s.LanesOk) (c : Command) (lane : Byte) : (s.laneReset c lane).LanesOk := by
  refine h.onCommandLane c lane fun l => ?_
  split
  · exact h.finish c _ _
  all_goals exact (h.resetLane l).finish c _ _

theorem State.LanesOk.stepReadCounters (h : s.LanesOk) : s.stepReadCounters.LanesOk := by
  unfold State.stepReadCounters
  split
  · exact h.readOwner _ _ _ _
  · refine h.runCommand fun s c a h => ?_
    unfold State.readCounters
    split
    · exact h.readOwner _ _ _ _
    · exact h.finish c _ _

/-! ## Every command -/

theorem State.LanesOk.exec {c : Instr} (hs : s.LanesOk) (values : s.ValuesOk) (h : exec c s = .next t) (hc : ofPins c = false) :
    t.LanesOk := by
  cases c with
  | powerOnReset | resetRelease | lineSignalGained | lineSignalLost => cases hc
  | placement => rw [exec_placement] at h; exact running_keeps h hs (hs.placeStage values)
  | handoff l => rw [exec_handoff] at h; exact onLane_keeps h hs hs.takeHandoff
  | idleTimerExpiry l => rw [exec_idleTimerExpiry] at h; exact onLane_keeps h hs (hs.timerExpiry Assembler.idle .idle)
  | ageTimerExpiry l => rw [exec_ageTimerExpiry] at h; exact onLane_keeps h hs (hs.timerExpiry Assembler.age .age)
  | retransmitTimerExpiry l => rw [exec_retransmitTimerExpiry] at h; exact onLane_keeps h hs hs.retransmitExpiry
  | laneUpdate => rw [exec_laneUpdate] at h; exact running_keeps h hs hs.takeUpdate
  | sendStart => rw [exec_sendStart] at h; exact running_keeps h hs hs.takeSendStart
  | linkUp => rw [exec_linkUp] at h; exact running_keeps h hs hs.gainLock
  | linkDown => rw [exec_linkDown] at h; exact running_keeps h hs hs.loseLock
  | resetPhase3 => rw [exec_resetPhase3] at h; exact running_keeps h hs hs.phase3
  | resetPhase4 => rw [exec_resetPhase4] at h; exact running_keeps h hs hs.phase4
  | laneFlush => rw [exec_laneFlush] at h; exact running_keeps h hs (hs.runCommand fun _ c a h => h.laneFlush c a)
  | laneConfig => rw [exec_laneConfig] at h; exact running_keeps h hs (hs.runCommand fun _ c a h => h.laneConfig c a)
  | laneStart => rw [exec_laneStart] at h; exact running_keeps h hs (hs.runCommand fun _ c a h => h.laneStart c a)
  | laneStop => rw [exec_laneStop] at h; exact running_keeps h hs (hs.runCommand fun _ c a h => h.laneStop c a)
  | laneReset => rw [exec_laneReset] at h; exact running_keeps h hs (hs.runCommand fun _ c a h => h.laneReset c a)
  | readCounters => rw [exec_readCounters] at h; exact running_keeps h hs hs.stepReadCounters
  | _ => exact hs.keeps (exec_keepsFootprint h rfl) rfl rfl

theorem State.lanesSound_iff (s : State) : s.LanesSound ↔ s.LanesOk ∧ s.ValuesOk :=
  ⟨fun h => ⟨fun l => ⟨h.lanes l, h.timers l⟩, h.values⟩, fun ⟨h, values⟩ => ⟨fun l => (h l).1, fun l => (h l).2, values⟩⟩

end

/-- Settles O59: each operation keeps its own lane sound, and a record placed is of at most 80 bytes because a frame was taken
only with values of at most 64. -/
theorem everyStepKeepsLanesSound : Obligations.EveryStepKeepsLanesSound := by
  intro s t hd hs h
  simp only [State.lanesSound_iff] at hs ⊢
  have same {s t : State} (h : s.LanesOk ∧ s.ValuesOk) (lanes : t.lanes = s.lanes) (link : t.trunk.linkUp = s.trunk.linkUp)
      (classifier : t.classifier = s.classifier) : t.LanesOk ∧ t.ValuesOk :=
    ⟨h.1.of_eq lanes link, h.2.same (.of_eq (by rw [classifier]))⟩
  refine step_keeps (P := fun s => s.LanesOk ∧ s.ValuesOk) (fun _ _ h => same h rfl rfl rfl) (fun s => ⟨fun l => ?_, nofun⟩)
    (fun _ _ h => same h rfl rfl rfl) (fun _ _ _ h => same h rfl rfl rfl) (fun s h => ⟨h.1.tick, h.2.same (.of_eq ?_)⟩)
    (fun c s t hs h hc => ⟨hs.1.exec hs.2 h hc, hs.2.exec h hc⟩) hd hs h
  · rw [s.powerOn_lane]
    exact ⟨Lane.sound_powerOn l, Lane.timerSound_powerOn _⟩
  · unfold State.tick
    split <;> rfl

end Sys2Proof.Machine

/-! Proof of O60: the cells of the pool, the lanes and the wire in balance. -/

namespace Sys2Proof.Machine

/-! ## The cells of one lane -/

/-- A lane with an open bundle has no pending one (R89). -/
def Lane.Single (ln : Lane) : Prop := ∀ b, ln.asm.openB = some b → ln.asm.pendingB = none

theorem Lane.Sound.single {l : LaneId} {ln : Lane} (h : ln.Sound l) : ln.Single := fun _ hb => (h.of_open hb).2

/-- The cells of a list of bundles. -/
def cellsOf (bs : List Bundle) : Nat := (bs.map Bundle.cells).sum

@[simp] theorem cellsOf_nil : cellsOf [] = 0 := rfl

@[simp] theorem cellsOf_cons (b : Bundle) (bs : List Bundle) : cellsOf (b :: bs) = b.cells + cellsOf bs := by simp [cellsOf]

@[simp] theorem cellsOf_append (xs ys : List Bundle) : cellsOf (xs ++ ys) = cellsOf xs + cellsOf ys := by simp [cellsOf]

theorem cellsOf_take_drop (k : Nat) (bs : List Bundle) : cellsOf (bs.take k) + cellsOf (bs.drop k) = cellsOf bs := by
  rw [← cellsOf_append, List.take_append_drop]

theorem cellsOf_set {bs : List Bundle} {k : Nat} {b x : Bundle} (hb : bs[k]? = some b) (same : x.cells = b.cells) :
    cellsOf (bs.set k x) = cellsOf bs := by
  unfold cellsOf
  rw [List.map_set, same]
  congr 1
  refine List.ext_getElem? fun i => ?_
  rw [List.getElem?_set]
  split
  · rename_i e
    subst e
    split
    · simp [hb]
    · rename_i out
      simp only [List.length_map, not_lt] at out
      simp [List.getElem?_eq_none out]
  · rfl

theorem Lane.cells_eq (ln : Lane) : ln.cells =
    cellsOf ln.asm.openB.toList + cellsOf ln.asm.pendingB.toList + cellsOf ln.ldu.ready + cellsOf ln.ldu.retention := by
  simp only [Lane.cells, Lane.bundles, ← cellsOf_append]
  rfl

/-- An operation at a lane that neither takes cells nor gives any back. -/
def Lane.Even (ln ln' : Lane) : Prop := ln.Single → ln'.Single ∧ ln'.cells = ln.cells

section
variable {ln ln' ln'' : Lane}

theorem Lane.Even.refl (ln : Lane) : ln.Even ln := fun h => ⟨h, rfl⟩

theorem Lane.Even.trans (h : ln.Even ln') (h' : ln'.Even ln'') : ln.Even ln'' := fun hs =>
  ⟨(h' (h hs).1).1, (h' (h hs).1).2.trans (h hs).2⟩

/-- What an operation does to the lists of bundles alone matters. -/
theorem Lane.Even.of_eq (open_ : ln'.asm.openB = ln.asm.openB) (pending : ln'.asm.pendingB = ln.asm.pendingB)
    (ready : cellsOf ln'.ldu.ready = cellsOf ln.ldu.ready) (retention : cellsOf ln'.ldu.retention = cellsOf ln.ldu.retention) :
    ln.Even ln' := by
  intro h
  refine ⟨fun b hb => ?_, ?_⟩
  · rw [pending]
    exact h b (open_.symm.trans hb)
  · rw [ln'.cells_eq, ln.cells_eq, open_, pending, ready, retention]

/-- A bundle that is the lane's open or pending one keeps its cells as a READY or a pending one. -/
theorem Lane.handOff_even (l : LaneId) {b : Bundle} (hb : ln.asm.openB = some b ∨ ln.asm.openB = none ∧ ln.asm.pendingB = some b) :
    ln.Even (ln.handOff l b) := by
  intro h
  have cells : ln.cells = b.cells + cellsOf ln.ldu.ready + cellsOf ln.ldu.retention := by
    rw [ln.cells_eq]
    rcases hb with hb | ⟨ho, hb⟩
    · simp [hb, h b hb]
    · simp [ho, hb]
  unfold Lane.handOff
  split
  · refine ⟨fun x _ => rfl, ?_⟩
    rw [Lane.cells_eq, cells]
    simp [Bundle.fresh]
    omega
  · refine ⟨nofun, ?_⟩
    rw [Lane.cells_eq, cells]
    simp

theorem Lane.settle_even (l : LaneId) (ln : Lane) : ln.Even (ln.settle l) := by
  unfold Lane.settle
  split
  · rename_i b offered
    refine Lane.handOff_even l (.inl ?_)
    unfold Lane.offered at offered
    split at offered
    · split at offered <;> cases offered
      assumption
    · cases offered
  · exact .refl ln

theorem Lane.completePending_even (l : LaneId) (ln : Lane) : ln.Even (ln.completePending l) := by
  intro h
  unfold Lane.completePending
  split
  · rename_i b pending
    split
    · refine Lane.handOff_even l (.inr ⟨?_, pending⟩) h
      cases e : ln.asm.openB with
      | none => rfl
      | some x => rw [h x e] at pending; cases pending
    · exact ⟨h, rfl⟩
  · exact ⟨h, rfl⟩

theorem Lane.close_even (now : Word) (reason : CloseReason) (ln : Lane) : ln.Even (ln.close now reason) := by
  intro h
  unfold Lane.close
  split
  · rename_i b hb
    split
    · refine ⟨fun x _ => h b hb, ?_⟩
      simp [Lane.cells_eq, hb]
    · exact ⟨h, rfl⟩
  · exact ⟨h, rfl⟩

theorem Lane.closeNow_even (l : LaneId) (now : Word) (reason : CloseReason) (ln : Lane) : ln.Even (ln.closeNow l now reason) :=
  (ln.close_even now reason).trans (Lane.settle_even l _)

theorem Lane.makeRoom_even (l : LaneId) (now : Word) (size : Nat) (ln : Lane) : ln.Even (ln.makeRoom l now size) := by
  unfold Lane.makeRoom
  split
  · split
    · exact ln.closeNow_even l now .fill
    · exact .refl ln
  · exact .refl ln

theorem Lane.closeCheck_even (now : Word) (urgent : Bool) (ln : Lane) : ln.Even (ln.closeCheck now urgent) := by
  unfold Lane.closeCheck
  split
  · exact ln.close_even now .count
  · split
    · exact ln.close_even now .urgent
    · exact .refl ln

theorem Lane.enterDraining_even (l : LaneId) (now : Word) (ln : Lane) : ln.Even (ln.enterDraining l now) := by
  have draining (x : Lane) : x.Even { x with ldu := { x.ldu with state := .draining } } := .of_eq rfl rfl rfl rfl
  exact ((ln.settle_even l).trans (draining _)).trans (Lane.closeNow_even l now .drain _)

theorem Lane.leaveStall_even (l : LaneId) (now : Word) (ln : Lane) : ln.Even (ln.leaveStall l now) := by
  unfold Lane.leaveStall
  split
  · split
    · exact (Lane.Even.of_eq (by rfl) (by rfl) (by rfl) (by rfl)).trans (Lane.enterDraining_even l now _)
    · exact .of_eq rfl rfl rfl rfl
  all_goals exact .refl ln

theorem Lane.startTimer_even (up : Bool) (now : Word) (ln : Lane) : ln.Even (ln.startTimer up now) := by
  unfold Lane.startTimer
  split
  · exact .of_eq rfl rfl rfl rfl
  · exact .refl ln

theorem Lane.resendFrom_even (l : LaneId) (up : Bool) (now : Word) (x : SeqNo) (ln : Lane) : ln.Even (ln.resendFrom l up now x) :=
  ((Lane.Even.of_eq (by rfl) (by rfl) (by rfl) (by rfl)).trans (Lane.leaveStall_even l now _)).trans (Lane.startTimer_even up now _)

theorem Lane.firstSend_even (l : LaneId) (up : Bool) (now : Word) {b : Bundle} {rest : List Bundle} (hr : ln.ldu.ready = b :: rest) :
    ln.Even (ln.firstSend l up now b rest) := by
  have head : ln.Even (ln.headSent b rest) := by
    intro h
    refine ⟨h, ?_⟩
    rw [Lane.cells_eq, Lane.cells_eq]
    simp [Lane.headSent, hr]
    omega
  unfold Lane.firstSend
  dsimp only
  split
  · exact (head.trans (Lane.startTimer_even up now _)).trans (Lane.completePending_even l _)
  · exact head.trans (Lane.completePending_even l _)

theorem Lane.resend_even {k : Nat} {b : Bundle} (hb : ln.ldu.retention[k]? = some b) : ln.Even (ln.resend k b) :=
  .of_eq rfl rfl rfl (cellsOf_set hb rfl)

theorem Lane.expire_even (up : Bool) (now : Word) (ln : Lane) : ln.Even (ln.expire up now).1 := by
  unfold Lane.expire
  dsimp only
  split
  · exact (Lane.Even.of_eq (by rfl) (by rfl) (by rfl) (by rfl)).trans (Lane.startTimer_even up now _)
  · exact .of_eq rfl rfl rfl rfl

/-- The bundles below an ack leave the lane with their cells (R120). -/
theorem Lane.ackAdvance_cells (l : LaneId) (up : Bool) (now : Word) (ack : SeqNo) (h : ln.Single) :
    (ln.ackAdvance l up now ack).Single
      ∧ (ln.ackAdvance l up now ack).cells + cellsOf (ln.ldu.retention.take (distance ln.ldu.a ack)) = ln.cells := by
  have moved : (ln.acked ack).cells + cellsOf (ln.ldu.retention.take (distance ln.ldu.a ack)) = ln.cells := by
    have split := cellsOf_take_drop (distance ln.ldu.a ack) ln.ldu.retention
    rw [Lane.cells_eq, Lane.cells_eq]
    simp only [Lane.acked]
    omega
  have settled (x : Lane) : x.Even
      (if x.ldu.retention.isEmpty then { x with ldu := { x.ldu with timer := .stopped } } else x.startTimer up now) := by
    split
    · exact .of_eq rfl rfl rfl rfl
    · exact x.startTimer_even up now
  obtain ⟨single, cells⟩ := ((Lane.leaveStall_even l now (ln.acked ack)).trans (settled _)) h
  exact ⟨single, by rw [← moved, ← cells]; rfl⟩

theorem Lane.append_cells (now : Word) {b : Bundle} (hb : ln.asm.openB = some b) (r : PlacedRecord) (cells : Nat) (h : ln.Single) :
    (ln.append now b r cells).Single ∧ (ln.append now b r cells).cells = ln.cells + cells := by
  refine ⟨fun _ _ => h b hb, ?_⟩
  rw [Lane.cells_eq, Lane.cells_eq, hb]
  simp [Lane.append, Bundle.append]
  omega

/-- A DISABLED lane has no bundle to lose to its first open one (R117, R137). -/
theorem Lane.Sound.started_even {l : LaneId} (h : ln.Sound l) (hs : ln.ldu.state = .disabled) : ln.Even (ln.started l) := by
  obtain ⟨noOpen, noPending, -⟩ := h.disabled hs
  intro _
  refine ⟨fun _ _ => noPending, ?_⟩
  rw [Lane.cells_eq, Lane.cells_eq, noOpen]
  simp [Lane.started, Bundle.fresh]

end

/-! ## The cells of the whole part -/

/-- The cells that the lanes hold. -/
def State.laneCells (s : State) : Nat := ∑ l : LaneId, (s.lane l).cells

/-- The free cells and the cells held are n in all, and every lane has at most one of its two bundles. -/
structure State.Holds (n : Nat) (s : State) : Prop where
  cells : s.pool.free + s.laneCells + s.wireCells = n
  single : ∀ l, (s.lane l).Single

section
variable {s t : State} {n : Nat}

theorem State.laneCells_setLane (s : State) (l : LaneId) (x : Lane) :
    (s.setLane l x).laneCells + (s.lane l).cells = s.laneCells + x.cells := by
  unfold State.laneCells
  rw [← Finset.add_sum_erase _ _ (Finset.mem_univ l), ← Finset.add_sum_erase _ (fun l => (s.lane l).cells) (Finset.mem_univ l),
    State.lane_setLane]
  have others : ∑ k ∈ Finset.univ.erase l, ((s.setLane l x).lane k).cells = ∑ k ∈ Finset.univ.erase l, (s.lane k).cells :=
    Finset.sum_congr rfl fun k hk => by rw [State.lane_setLane_ne s x (Finset.ne_of_mem_erase hk)]
  omega

theorem State.laneCells_of_lanes (h : t.lanes = s.lanes) : t.laneCells = s.laneCells := by
  unfold State.laneCells State.lane
  rw [h]

theorem State.wireCells_of_outbound (h : t.trunk.outbound = s.trunk.outbound) : t.wireCells = s.wireCells := by
  unfold State.wireCells
  rw [h]

theorem State.Holds.of_eq (h : s.Holds n) (lanes : t.lanes = s.lanes) (free : t.pool.free = s.pool.free)
    (wire : t.wireCells = s.wireCells) : t.Holds n where
  cells := by rw [State.laneCells_of_lanes lanes, free, wire]; exact h.cells
  single l := by unfold State.lane; rw [lanes]; exact h.single l

theorem State.Holds.keeps {fp : Footprint} (h : s.Holds n) (k : s.Keeps fp t) (hl : fp.lanes = false) (hp : fp.pool = false)
    (wire : t.trunk.outbound = s.trunk.outbound) : t.Holds n :=
  h.of_eq (k.lanes hl) (by rw [k.pool hp]) (State.wireCells_of_outbound wire)

/-- One lane is replaced, and the total changes as that lane's cells do. -/
theorem State.Holds.setLane {m : Nat} (h : s.Holds m) (l : LaneId) {x : Lane} (hx : x.Single)
    (total : m + x.cells = n + (s.lane l).cells) : (s.setLane l x).Holds n where
  cells := by
    have moved := s.laneCells_setLane l x
    have cells := h.cells
    change s.pool.free + State.laneCells _ + s.wireCells = n
    omega
  single k := by
    rw [State.lane_setLane_eq]
    split
    · exact hx
    · exact h.single k

theorem State.Holds.even (h : s.Holds n) (l : LaneId) {x : Lane} (hx : (s.lane l).Even x) : (s.setLane l x).Holds n :=
  h.setLane l (hx (h.single l)).1 (by rw [(hx (h.single l)).2])

/-- Every lane takes an operation that neither takes cells nor gives any back. -/
theorem State.Holds.mapLanes (h : s.Holds n) {g : Lane → Lane} (lanes : t.lanes = s.lanes.map g) (hg : ∀ ln : Lane, ln.Even (g ln))
    (free : t.pool.free = s.pool.free) (wire : t.wireCells = s.wireCells) : t.Holds n where
  cells := by
    have same : t.laneCells = s.laneCells :=
      Finset.sum_congr rfl fun l _ => by rw [State.lane_map g lanes l, (hg _ (h.single l)).2]
    rw [same, free, wire]
    exact h.cells
  single l := by
    rw [State.lane_map g lanes l]
    exact (hg _ (h.single l)).1

/-! ## The pool and the wire -/

theorem State.freeCells_free (s : State) (k : Nat) : (s.freeCells k).pool.free = s.pool.free + k := by
  unfold State.freeCells
  split
  · rename_i zero
    rw [zero, Nat.add_zero]
  · rfl

theorem State.Holds.freeCells (h : s.Holds n) (k : Nat) : (s.freeCells k).Holds (n + k) where
  cells := by
    have same := State.laneCells_of_lanes ((s.freeCells_keeps k).lanes rfl)
    have wire := State.wireCells_of_outbound (congrArg Trunk.outbound ((s.freeCells_keeps k).trunk rfl))
    have free := s.freeCells_free k
    have cells := h.cells
    omega
  single l := by
    unfold State.lane
    rw [(s.freeCells_keeps k).lanes rfl]
    exact h.single l

theorem State.Holds.allocate (h : s.Holds n) {k : Nat} (ha : s.allocate k = some t) : k ≤ n ∧ t.Holds (n - k) := by
  have lanes := (State.allocate_keeps ha).lanes rfl
  have wire := State.wireCells_of_outbound (congrArg Trunk.outbound ((State.allocate_keeps ha).trunk rfl))
  have free : t.pool.free + k = s.pool.free := by
    unfold State.allocate at ha
    split at ha
    · rename_i zero
      cases ha
      rw [zero, Nat.add_zero]
    · split at ha
      · cases ha
      · rename_i enough
        have left : s.pool.free - k + k = s.pool.free := Nat.sub_add_cancel (Nat.not_lt.mp enough)
        dsimp only at ha
        split at ha <;> cases ha <;> exact left
  have cells := h.cells
  have same := State.laneCells_of_lanes lanes
  refine ⟨by omega, by omega, fun l => ?_⟩
  unfold State.lane
  rw [lanes]
  exact h.single l

/-- The cells of a bundle that leaves its lane go to the pool, or with the bundle to the wire (R77, R120). -/
theorem State.Holds.discard (h : s.Holds n) (l : LaneId) (b : Bundle) : (s.discard l b).Holds (n + b.cells) := by
  unfold State.discard
  split
  · rename_i retained
    split
    · refine ⟨?_, h.single⟩
      have before : s.wireCells = 0 := by unfold State.wireCells; rw [retained]
      have cells := h.cells
      change s.pool.free + s.laneCells + b.cells = n + b.cells
      omega
    · exact h.freeCells _
  · exact h.freeCells _

theorem State.Holds.discards (h : s.Holds n) (l : LaneId) (bs : List Bundle) :
    (bs.foldl (State.discard l) s).Holds (n + cellsOf bs) := by
  induction bs generalizing s n with
  | nil => exact h
  | cons b bs ih =>
    have moved := ih (h.discard l b)
    rwa [Nat.add_assoc, ← cellsOf_cons] at moved

theorem State.Holds.disableLane (h : s.Holds n) (l : LaneId) : (s.disableLane l).Holds n := by
  have same : ((s.lane l).bundles.foldl (State.discard l) s).lane l = s.lane l := by
    unfold State.lane
    rw [State.discards_frame]
  refine (h.discards l (s.lane l).bundles).setLane l nofun ?_
  rw [same]
  rfl

theorem State.Holds.drainCheck (h : s.Holds n) (l : LaneId) : (s.drainCheck l).Holds n := by
  unfold State.drainCheck
  split
  · exact (h.disableLane l).of_eq rfl rfl rfl
  · exact h

theorem State.Holds.clearWire (h : s.Holds n) : s.clearWire.Holds n := by
  have cleared (k : Nat) (hk : s.wireCells = k) : ({ s with trunk := { s.trunk with outbound := none } } : State).Holds (n - k) ∧ k ≤ n := by
    have cells := h.cells
    refine ⟨⟨?_, h.single⟩, by omega⟩
    change s.pool.free + s.laneCells + 0 = n - k
    omega
  unfold State.clearWire
  dsimp only
  split
  · rename_i b _ releasing
    obtain ⟨held, le⟩ := cleared b.cells (by unfold State.wireCells; rw [releasing])
    have freed := held.freeCells b.cells
    rwa [Nat.sub_add_cancel le] at freed
  · rename_i other
    refine (cleared 0 ?_).1
    unfold State.wireCells
    split
    · exact absurd ‹_› (other _ _ _ _)
    · rfl

theorem State.Holds.cutFrame (h : s.Holds n) : s.cutFrame.Holds n := by
  unfold State.cutFrame
  split
  · rename_i l carried bytes sending
    have cutting : ({ s with trunk := { s.trunk with outbound := some (.bundle l .cutting carried bytes) } } : State).Holds n := by
      refine h.of_eq rfl rfl ?_
      unfold State.wireCells
      rw [sending]
      cases carried <;> rfl
    exact cutting.even l (.of_eq rfl rfl rfl rfl)
  · exact h

theorem State.Holds.raise (h : s.Holds n) (i : SourceNo) : (s.raise i).Holds n := h.of_eq rfl rfl rfl

theorem State.Holds.countTrunk (h : s.Holds n) (f : TrunkCounters → TrunkCounters) : (s.countTrunk f).Holds n := h.of_eq rfl rfl rfl

theorem State.Holds.finish (h : s.Holds n) (c : Command) (st : Status) (bytes : List Byte) : (s.finish c st bytes).Holds n :=
  h.of_eq rfl rfl rfl

theorem Trunk.placeResponse_outbound (t : Trunk) (r : Response) : (t.placeResponse r).outbound = t.outbound := by
  unfold Trunk.placeResponse
  split <;> rfl

theorem State.Holds.endCommand (h : s.Holds n) (c : Command) (r : Response) : (s.endCommand c r).Holds n :=
  h.of_eq rfl rfl (State.wireCells_of_outbound (s.trunk.placeResponse_outbound r))

/-- A frame that carries no bundle goes on the free wire. -/
theorem State.Holds.onWire (h : s.Holds n) (free : s.trunk.outbound = none) (lanes : t.lanes = s.lanes) (pool : t.pool = s.pool)
    (wire : t.wireCells = 0) : t.Holds n :=
  h.of_eq lanes (by rw [pool]) (wire.trans (by unfold State.wireCells; rw [free]))

theorem State.Holds.startResponse (h : s.Holds n) (free : s.trunk.outbound = none) (r : Response) (rest : List Response) :
    (s.startResponse r rest).Holds n := by
  have started : ({ s with trunk := { s.trunk with
      responses := rest, outbound := some (.response r (r.frame s.trunk.unit)) } } : State).Holds n := h.onWire free rfl rfl rfl
  unfold State.startResponse
  dsimp only
  split
  · exact started
  · split
    · exact started.endCommand _ _
    · exact started

theorem State.Holds.arbitrate (h : s.Holds n) : s.arbitrate.Holds n := by
  unfold State.arbitrate
  split
  · rename_i may
    have free : s.trunk.outbound = none := by
      simp only [Trunk.mayChoose, Bool.and_eq_true, Option.isNone_iff_eq_none] at may
      exact may.1.1
    split
    · exact h.startResponse free _ _
    · split
      · exact h.of_eq rfl rfl rfl
      · split
        · exact h
        · split
          · exact h.of_eq rfl rfl rfl
          · exact h
  · exact h

/-! ## The lanes -/

theorem State.Holds.countAsm (h : s.Holds n) (l : LaneId) (f : AssemblyCounters → AssemblyCounters) : (s.countAsm l f).Holds n :=
  h.even l (.of_eq rfl rfl rfl rfl)

theorem State.Holds.answerLaneFull (h : s.Holds n) (l : LaneId) : (s.answerLaneFull l).1.Holds n := (h.countAsm l _).raise _

theorem State.Holds.placeInto (h : s.Holds n) (l : LaneId) {b : Bundle} (hb : (s.lane l).asm.openB = some b) (q : PlacementRequest) :
    (s.placeInto l b q).1.Holds n := by
  unfold State.placeInto
  dsimp only
  split
  · dsimp only
    exact (h.raise _).countAsm l _
  · rename_i t ha
    obtain ⟨le, held⟩ := h.allocate ha
    have same : t.lane l = s.lane l := by unfold State.lane; rw [State.allocate_lanes ha]
    obtain ⟨single, cells⟩ := Lane.append_cells s.deviceTime hb q.record (cellsFor (b.payload + q.record.size) - b.cells) (h.single l)
    obtain ⟨single', cells'⟩ := Lane.closeCheck_even s.deviceTime q.urgent _ single
    rw [same]
    refine held.setLane l single' ?_
    rw [same, cells', cells]
    omega

theorem State.Holds.place (h : s.Holds n) (l : LaneId) (q : PlacementRequest) : (s.place l q).1.Holds n := by
  have settled := h.even l ((s.lane l).settle_even l)
  have room {s : State} (h : s.Holds n) : (if (s.lane l).closePending then s.answerLaneFull l else
      match ((s.setLane l ((s.lane l).makeRoom l s.deviceTime q.record.size)).lane l).asm.openB with
      | some b => (s.setLane l ((s.lane l).makeRoom l s.deviceTime q.record.size)).placeInto l b q
      | none => (s.setLane l ((s.lane l).makeRoom l s.deviceTime q.record.size)).answerLaneFull l).1.Holds n := by
    have made := h.even l ((s.lane l).makeRoom_even l s.deviceTime q.record.size)
    split
    · exact h.answerLaneFull l
    · split
      · rename_i hb
        exact made.placeInto l hb q
      · exact made.answerLaneFull l
  unfold State.place
  dsimp only
  split
  · dsimp only
    exact settled.countAsm l _
  · dsimp only
    exact settled.countAsm l _
  · exact room settled
  · exact room settled

theorem State.Holds.applyAck (h : s.Holds n) (l : LaneId) (ack : SeqNo) : (s.applyAck l ack).Holds n := by
  unfold State.applyAck
  dsimp only
  split
  · exact h
  · obtain ⟨single, cells⟩ := Lane.ackAdvance_cells l s.trunk.linkUp s.deviceTime ack (h.single l)
    have same : (((s.lane l).ldu.retention.take (distance (s.lane l).ldu.a ack)).foldl (State.discard l) s).lane l = s.lane l := by
      unfold State.lane
      rw [State.discards_frame]
    have moved := h.discards l ((s.lane l).ldu.retention.take (distance (s.lane l).ldu.a ack))
    refine moved.setLane l single ?_
    rw [same]
    omega

theorem State.Holds.applyUpdate (h : s.Holds n) (u : LaneUpdate) : (s.applyUpdate u).Holds n := by
  have refuse {s : State} (h : s.Holds n) : s.refuseUpdate.Holds n := (h.countTrunk _).raise _
  have grant {s : State} (h : s.Holds n) : (s.applyGrant u.lane u.grant).Holds n := by
    have granted : (s.setLane u.lane { s.lane u.lane with ldu := (s.lane u.lane).ldu.afterGrant u.grant }).Holds n := by
      refine h.even u.lane (.of_eq rfl rfl ?_ ?_)
      · show cellsOf ((s.lane u.lane).ldu.afterGrant u.grant).ready = _; rw [Ldu.afterGrant_eq]
      · show cellsOf ((s.lane u.lane).ldu.afterGrant u.grant).retention = _; rw [Ldu.afterGrant_eq]
    unfold State.applyGrant
    dsimp only
    split
    · exact granted.countTrunk _
    · exact granted
    · exact granted
  have resend {s : State} (h : s.Holds n) : (s.applyResend u.lane u.resendFrom).Holds n := by
    unfold State.applyResend
    split
    · split
      · exact h.even u.lane (Lane.resendFrom_even _ _ _ _ _)
      · exact h
    · exact h
  have parts := resend (grant (h.applyAck u.lane u.ack))
  unfold State.applyUpdate
  dsimp only
  split
  · exact refuse h
  · split
    · exact (refuse parts).drainCheck _
    · exact parts.drainCheck _

theorem State.Holds.sendStartAt (h : s.Holds n) {l : LaneId} (ht : s.sendStartAt l = some t) : t.Holds n := by
  unfold State.sendStartAt at ht
  dsimp only at ht
  split at ht
  · cases ht
  · rename_i may
    have free : s.trunk.outbound = none := by
      simp only [Bool.or_eq_true, not_or, Bool.not_eq_true, Option.isSome_eq_false_iff, Option.isNone_iff_eq_none] at may
      exact may.1.1
    have started {s : State} (h : s.Holds n) (free : s.trunk.outbound = none) (seq : SeqNo) (b : Bundle) :
        (s.startBundle l seq b).Holds n := h.onWire free rfl rfl rfl
    split at ht
    · split at ht
      · rename_i hb
        cases ht
        exact started (h.even l (Lane.resend_even hb)) (by exact free) _ _
      · cases ht
    · split at ht
      · split at ht
        · rename_i hr
          cases ht
          exact started (h.even l (Lane.firstSend_even l _ _ hr)) (by exact free) _ _
        · cases ht
      · cases ht

end

end Sys2Proof.Machine

namespace Sys2Proof.Machine

section
variable {s t : State} {n : Nat}

/-! ## The Classifier and the field ports -/

theorem State.Holds.raised (h : s.Holds n) (i : SourceNo) : (s.raise i).arbitrate.Holds n := (h.raise i).arbitrate

theorem State.Holds.setPort (h : s.Holds n) (p : PortId) (x : Port) : (s.setPort p x).Holds n := h.of_eq rfl rfl rfl

/-- An event that leaves the pool, the lanes and the wire as they are. -/
theorem State.Holds.untouched {fp : Footprint} (h : s.Holds n) (k : s.Keeps fp t) (hl : fp.lanes = false) (hp : fp.pool = false)
    (ht : fp.trunk = false) : t.Holds n := h.keeps k hl hp (by rw [k.trunk ht])

theorem State.Holds.recordEnds (h : s.Holds n) (f : FrameInProgress) : (s.recordEnds f).Holds n :=
  h.untouched (s.recordEnds_keeps f) rfl rfl rfl

theorem State.Holds.fieldByte (h : s.Holds n) (p : PortId) (b : Byte) : (s.fieldByte p b).Holds n := by
  unfold State.fieldByte
  dsimp only
  split
  · split
    · exact h.setPort p _
    · split
      · exact (h.setPort p _).raised _
      · exact h.setPort p _
  · exact h

theorem State.Holds.fieldEnd (h : s.Holds n) (p : PortId) : (s.fieldEnd p).Holds n := by
  have bad (f : PortCounters → PortCounters) : (s.badFrameEnds p f).Holds n := by
    unfold State.badFrameEnds
    dsimp only
    split
    · exact (h.setPort p _).raised _
    · exact h.setPort p _
  unfold State.fieldEnd
  dsimp only
  split
  · exact h
  · exact bad _
  · split
    · exact bad _
    · split
      · exact bad _
      · split <;> exact h.setPort p _
  all_goals exact h.setPort p _

theorem State.Holds.searchStage (h : s.Holds n) : s.searchStage.Holds n := by
  have counted (p : PortId) (c : PortCounters → PortCounters) : (s.countPort p c).Holds n := h.setPort p _
  unfold State.searchStage
  split
  · rename_i f _
    split
    · split
      · exact (((counted _ _).raise _).recordEnds f).arbitrate
      · dsimp only
        split
        · exact (counted _ _).recordEnds f
        · split <;> exact h.of_eq rfl rfl rfl
    · exact h
  · exact h

theorem State.Holds.learnStage (h : s.Holds n) : s.learnStage.Holds n := by
  have table (x : StreamTable) : ({ s with streams := x } : State).Holds n := h.of_eq rfl rfl rfl
  unfold State.learnStage
  split
  · rename_i f _
    split
    · dsimp only
      split
      · exact (table _).untouched (State.judgeHit_keeps _ f _ _) rfl rfl rfl
      · exact (table _).untouched (State.judgeHit_keeps _ f _ _) rfl rfl rfl
      · exact (((table _).raise _).untouched (State.setStage_keeps _ f _) rfl rfl rfl).arbitrate
    · exact h
  · exact h

theorem State.Holds.placeStage (h : s.Holds n) : s.placeStage.Holds n := by
  unfold State.placeStage
  split
  · split
    · exact ((h.place _ _).untouched (State.routeEnds_keeps _ _ _ _) rfl rfl rfl).arbitrate
    · exact h
  · exact h

/-! ## The lanes and the trunk -/

theorem State.Holds.takeHandoff (h : s.Holds n) (l : LaneId) :
    (if (s.lane l).offered.isSome then (s.setLane l ((s.lane l).settle l)).arbitrate else s).Holds n := by
  split
  · exact (h.even l (Lane.settle_even l _)).arbitrate
  · exact h

theorem State.Holds.timerExpiry (h : s.Holds n) (timer : Assembler → Timer) (reason : CloseReason) (l : LaneId) :
    (if (timer (s.lane l).asm).due s.deviceTime then s.setLane l ((s.lane l).close s.deviceTime reason) else s).Holds n := by
  split
  · exact h.even l (Lane.close_even _ _ _)
  · exact h

theorem State.Holds.takeUpdate (h : s.Holds n) : s.takeUpdate.Holds n := by
  have handed (x : List Handover) : ({ s with trunk := { s.trunk with handed := x } } : State).Holds n := h.of_eq rfl rfl rfl
  unfold State.takeUpdate
  split
  · exact h
  · exact h
  · dsimp only
    split
    · exact (handed _).countTrunk _
    · split
      · exact (handed _).countTrunk _
      all_goals exact ((handed _).applyUpdate _).arbitrate

theorem State.Holds.takeSendStart (h : s.Holds n) : s.takeSendStart.Holds n := by
  have asked (x : ArbiterRequest) : ({ s with trunk := { s.trunk with request := x } } : State).Holds n := h.of_eq rfl rfl rfl
  unfold State.takeSendStart
  split
  · dsimp only
    split
    · rename_i started
      exact (asked _).sendStartAt started
    · exact (asked _).arbitrate
  · exact h
  · exact h

theorem State.Holds.retransmitExpiry (h : s.Holds n) (l : LaneId) : (s.retransmitExpiry l).Holds n := by
  have expired := h.even l (Lane.expire_even s.trunk.linkUp s.deviceTime (s.lane l))
  unfold State.retransmitExpiry
  split
  · dsimp only
    split
    · exact State.Holds.arbitrate (expired.of_eq rfl rfl rfl)
    · exact expired.arbitrate
  · exact h

theorem State.Holds.gainLock (h : s.Holds n) : s.gainLock.Holds n := by
  unfold State.gainLock
  split
  · exact h
  · exact State.Holds.arbitrate (h.mapLanes (by rfl) (Lane.startTimer_even true s.deviceTime) (by rfl) (by rfl))

theorem State.Holds.loseLock (h : s.Holds n) : s.loseLock.Holds n := by
  have lost : s.lockLost.Holds n :=
    h.clearWire.mapLanes (g := Lane.linkDown) (by rfl) (fun _ => .of_eq rfl rfl rfl rfl) (by rfl) (State.wireCells_of_outbound (by rfl))
  exact s.loseLock_cases (State.Holds n) (fun _ => h) (fun _ => lost) fun c r _ _ => lost.endCommand c r

/-- The trunk changes but for the frame on its outbound wire. -/
theorem State.Holds.ofTrunk (h : s.Holds n) {x : Trunk} (wire : x.outbound = s.trunk.outbound) : ({ s with trunk := x } : State).Holds n :=
  h.of_eq rfl rfl (State.wireCells_of_outbound wire)

theorem State.Holds.dispatch (h : s.Holds n) (x : InboundContent) : (s.dispatch x).Holds n := by
  have updates (us : List RawUpdate) (s : State) (h : s.Holds n) : (us.foldl State.dispatchUpdate s).Holds n := by
    induction us generalizing s with
    | nil => exact h
    | cons u us ih =>
      refine ih _ ?_
      unfold State.dispatchUpdate
      split
      · exact h.ofTrunk rfl
      · exact (h.countTrunk _).raise _
  cases x with
  | laneControl us => exact updates us _ (h.countTrunk _)
  | command c => exact h.ofTrunk rfl

theorem State.Holds.inboundEnd (h : s.Holds n) : s.inboundEnd.Holds n := by
  have ended : ({ s with trunk := { s.trunk with inbound := none } } : State).Holds n := h.ofTrunk rfl
  unfold State.inboundEnd
  dsimp only
  split
  · unfold State.judgeInbound
    split
    · exact ended.countTrunk _
    · split
      · exact ended.countTrunk _
      · split
        · exact ended.countTrunk _
        · split
          · exact ended.countTrunk _
          · split
            · exact ((ended.countTrunk _).dispatch _).arbitrate
            · exact ended.countTrunk _
  · exact ended.countTrunk _
  · exact h

theorem State.Holds.takeBatchRequest (h : s.Holds n) : s.takeBatchRequest.Holds n := by
  unfold State.takeBatchRequest
  split
  · dsimp only
    split
    · rename_i may
      have free : s.trunk.outbound = none := by
        simp only [Bool.and_eq_true, Option.isNone_iff_eq_none] at may
        exact may.2
      exact h.onWire free rfl rfl rfl
    · exact State.Holds.arbitrate (h.of_eq rfl rfl rfl)
  · exact h
  · exact h

theorem State.Holds.frameEnds (h : s.Holds n) : s.clearWire.countFrameOut.arbitrate.Holds n := (h.clearWire.countTrunk _).arbitrate

theorem State.Holds.frameOutEnds (h : s.Holds n) : s.frameOutEnds.Holds n := by
  unfold State.frameOutEnds
  split
  · exact h.frameEnds
  · exact h.frameEnds
  · exact h
  · exact h

theorem State.Holds.bundleFrameEnds (h : s.Holds n) : s.bundleFrameEnds.Holds n := by
  unfold State.bundleFrameEnds
  split
  · exact h.frameEnds
  · exact h

theorem State.Holds.cutFrameEnds (h : s.Holds n) : s.cutFrameEnds.Holds n := by
  unfold State.cutFrameEnds
  split
  · exact State.Holds.arbitrate (h.clearWire.of_eq rfl rfl rfl)
  · exact h

/-! ## The Management Unit -/

theorem State.Holds.judgeArrival (h : s.Holds n) (c : Command) : (s.judgeArrival c).Holds n := by
  have mu (m : Mu) : ({ s with mu := m } : State).Holds n := h.of_eq rfl rfl rfl
  have placed (r : Response) (m : Mu) : ({ s with trunk := s.trunk.placeResponse r, mu := m } : State).arbitrate.Holds n :=
    State.Holds.arbitrate (h.of_eq rfl rfl (State.wireCells_of_outbound (s.trunk.placeResponse_outbound r)))
  unfold State.judgeArrival
  split
  · exact mu _
  · split
    · split
      · exact placed _ _
      · exact mu _
    · split
      · exact mu _
      · split
        · split
          · exact placed _ _
          · exact mu _
        · exact mu _

theorem State.Holds.takeArrival (h : s.Holds n) : s.takeArrival.Holds n := by
  unfold State.takeArrival
  split
  · have taken (x : List Handover) : ({ s with trunk := { s.trunk with handed := x } } : State).Holds n := h.ofTrunk rfl
    exact (taken _).judgeArrival _
  · exact h

theorem State.Holds.commandEnds (h : s.Holds n) : s.commandEnds.Holds n := by
  unfold State.commandEnds
  split
  · split
    · exact (h.endCommand _ _).arbitrate
    · exact h
  · exact h

theorem State.Holds.runCommand (h : s.Holds n) {α : Type} {code : Byte} {parse : List Byte → Option α} {need : α → SessionNeed}
    {effect : State → Command → α → State} (taken : ∀ (s : State) c a, s.Holds n → (effect s c a).Holds n) :
    (s.runCommand code parse need effect).Holds n :=
  State.runCommand_cases s code parse need effect (State.Holds n) h (fun _ _ _ _ _ => h.of_eq rfl rfl rfl)
    fun _ _ _ _ _ _ _ _ => taken _ _ _ (h.of_eq rfl rfl rfl)

theorem State.Holds.onCommandLane (h : s.Holds n) (c : Command) (lane : Byte) {f : LaneId → State} (hf : ∀ l, (f l).Holds n) :
    (s.onCommandLane c lane f).Holds n := by
  unfold State.onCommandLane
  split
  · exact h.finish c _ _
  · exact hf _

theorem State.Holds.poolSet (h : s.Holds n) (c : Command) (a : PoolSetParams) : (s.poolSet c a).Holds n := by
  have thresholds : (s.setThresholds a).Holds n := by
    unfold State.setThresholds
    dsimp only
    split
    · split <;> exact h.of_eq rfl rfl rfl
    · split <;> exact h.of_eq rfl rfl rfl
  unfold State.poolSet
  split
  · exact (thresholds.finish c _ _).arbitrate
  · exact h.finish c _ _

theorem State.Holds.laneFlush (h : s.Holds n) (c : Command) (lane : Byte) : (s.laneFlush c lane).Holds n := by
  have flushed (l : LaneId) : (s.flushLane c l).Holds n := by
    have settled := h.even l ((s.lane l).settle_even l)
    unfold State.flushLane
    dsimp only
    split
    · exact settled.finish c _ _
    · split
      · exact settled.finish c _ _
      · exact (settled.even l (Lane.closeNow_even _ _ _ _)).finish c _ _
  refine h.onCommandLane c lane fun l => ?_
  split
  · exact h.finish c _ _
  all_goals exact (flushed l).arbitrate

theorem State.Holds.laneConfig (h : s.Holds n) (c : Command) (a : LaneConfigParams) : (s.laneConfig c a).Holds n := by
  refine h.onCommandLane c a.lane fun l => ?_
  split
  · exact h.finish c _ _
  · exact h.finish c _ _
  · exact h.finish c _ _
  · split
    · have configured : (s.lane l).Even ((s.lane l).configured a) := .of_eq rfl rfl rfl rfl
      exact (h.even l configured).finish c _ _
    · exact h.finish c _ _

theorem State.Holds.laneStart (h : s.Holds n) (sound : s.LanesOk) (c : Command) (lane : Byte) : (s.laneStart c lane).Holds n := by
  refine h.onCommandLane c lane fun l => ?_
  split
  · rename_i disabled
    exact (h.even l ((sound l).1.started_even disabled)).finish c _ _
  all_goals exact h.finish c _ _

theorem State.Holds.laneStop (h : s.Holds n) (c : Command) (lane : Byte) : (s.laneStop c lane).Holds n := by
  refine h.onCommandLane c lane fun l => ?_
  dsimp only
  split
  · exact h.finish c _ _
  · exact h.finish c _ _
  · exact (((h.even l (Lane.enterDraining_even _ _ _)).drainCheck l).finish c _ _).arbitrate
  · split
    · exact h.finish c _ _
    · have requested : (s.lane l).Even { s.lane l with ldu := { (s.lane l).ldu with drainRequested := true } } :=
        .of_eq rfl rfl rfl rfl
      exact (h.even l requested).finish c _ _

theorem State.Holds.laneReset (h : s.Holds n) (c : Command) (lane : Byte) : (s.laneReset c lane).Holds n := by
  have reset (l : LaneId) : (s.resetLane l).Holds n := by
    unfold State.resetLane
    split
    · exact h.cutFrame.disableLane l
    · exact h.disableLane l
  refine h.onCommandLane c lane fun l => ?_
  split
  · exact h.finish c _ _
  all_goals exact (reset l).finish c _ _

theorem State.Holds.openSession (h : s.Holds n) (c : Command) (a : Unit) : (s.openSession c a).Holds n := by
  have taken (u : NoticeUnit) (m : Mu) : ({ s with mu := m, notices := u } : State).Holds n := h.of_eq rfl rfl rfl
  unfold State.openSession
  split
  · exact ((taken _ _).finish c _ _).arbitrate
  · exact h.finish c _ _

theorem State.Holds.noticeRearm (h : s.Holds n) (c : Command) (a : NoticeRearmParams) : (s.noticeRearm c a).Holds n := by
  have taken (u : NoticeUnit) : ({ s with notices := u } : State).Holds n := h.of_eq rfl rfl rfl
  unfold State.noticeRearm
  split
  · exact h.finish c _ _
  · exact ((taken _).finish c _ _).arbitrate

theorem State.Holds.clearOwner (h : s.Holds n) (o : CounterOwner) : (s.clearOwner o).Holds n := by
  cases o with
  | assembler l => exact h.countAsm l fun _ => {}
  | ldu l => exact h.even l (.of_eq rfl rfl rfl rfl)
  | _ => exact h.of_eq rfl rfl rfl

theorem State.Holds.readOwner (h : s.Holds n) (c : Command) (clear : Bool) (left : List CounterOwner) (result : List Byte) :
    (s.readOwner c clear left result).Holds n := by
  cases left with
  | nil => exact h.finish c _ _
  | cons o rest =>
    rw [State.readOwner_cons]
    cases clear with
    | false => exact h.of_eq rfl rfl rfl
    | true => exact (h.clearOwner o).of_eq rfl rfl rfl

theorem State.Holds.stepReadCounters (h : s.Holds n) : s.stepReadCounters.Holds n := by
  unfold State.stepReadCounters
  split
  · exact h.readOwner _ _ _ _
  · refine h.runCommand fun s c a h => ?_
    unfold State.readCounters
    split
    · exact h.readOwner _ _ _ _
    · exact h.finish c _ _

/-! ## The phases of DATAPATH_RESET -/

theorem State.Holds.phase3 (h : s.Holds n) : s.phase3.Holds n := by
  unfold State.phase3
  split
  · exact h.cutFrame.of_eq rfl rfl rfl
  · exact h

theorem Lane.Sound.cells_of_disabled {l : LaneId} {ln : Lane} (h : ln.Sound l) (hs : ln.ldu.state = .disabled) : ln.cells = 0 := by
  obtain ⟨noOpen, noPending, noReady, noRetention, -⟩ := h.disabled hs
  rw [ln.cells_eq, noOpen, noPending, noReady, noRetention]
  rfl

theorem State.disableLane_lane (s : State) (l k : LaneId) :
    (s.disableLane l).lane k = if k = l then (s.lane l).disabled else s.lane k := by
  unfold State.disableLane
  dsimp only
  rw [State.lane_setLane_eq]
  unfold State.lane
  rw [State.discards_frame]

theorem State.disableAll_lane (s : State) (ls : List LaneId) (k : LaneId) (out : (s.lane k).ldu.state ≠ .disabled → k ∈ ls) :
    ((ls.foldl State.disableLane s).lane k).ldu.state = .disabled := by
  induction ls generalizing s with
  | nil =>
    by_contra inService
    exact List.not_mem_nil (out inService)
  | cons l ls ih =>
    refine ih _ fun inService => ?_
    rw [State.disableLane_lane] at inService
    split at inService
    · exact absurd rfl inService
    · rename_i other
      exact (List.mem_cons.mp (out inService)).resolve_left other

/-- After phase 4 every lane is DISABLED and holds nothing, and the wire holds no bundle (R143, R181). -/
theorem State.disableLanes_lane (s : State) (k : LaneId) : (s.disableLanes.lane k).ldu.state = .disabled :=
  s.disableAll_lane _ k fun inService => by
    simp only [State.lanesInService, List.mem_filter, List.mem_finRange, bne_iff_ne, ne_eq, true_and]
    exact inService

theorem State.wireCells_of_noBundle (h : s.trunk.bundleOnWire = false) : s.wireCells = 0 := by
  unfold Trunk.bundleOnWire at h
  unfold State.wireCells
  split at h
  · cases h
  · rename_i none
    split
    · exact absurd ‹_› (none _ _ _ _)
    · rfl

theorem State.CellsBalance.phase4 (h : s.CellsBalance) (sound : s.LanesOk) (phases : s.PhasesSound) : s.phase4.CellsBalance := by
  unfold State.phase4
  split
  · rename_i executing
    have past : s.resetPastWire = true := by unfold State.resetPastWire; rw [executing]
    have wire : s.disableLanes.wireCells = 0 := State.wireCells_of_noBundle (s.disableLanes_sameLink.bundle (phases.wire past))
    have none (l : LaneId) : (s.disableLanes.lane l).cells = 0 :=
      ((sound.disableAll _) l).1.cells_of_disabled (s.disableLanes_lane l)
    have lanes : s.disableLanes.laneCells = 0 := Finset.sum_eq_zero fun l _ => none l
    change 4096 + s.disableLanes.laneCells + s.disableLanes.wireCells = 4096
    rw [lanes, wire]
  · exact h

/-! ## Every command -/

theorem State.Holds.exec {c : Instr} (hs : s.Holds 4096) (sound : s.LanesOk) (phases : s.PhasesSound) (h : exec c s = .next t)
    (hc : ofPins c = false) : t.CellsBalance := by
  suffices held : t.Holds 4096 ∨ t.CellsBalance from held.elim State.Holds.cells id
  have kept (held : t.Holds 4096) : t.Holds 4096 ∨ t.CellsBalance := .inl held
  cases c with
  | powerOnReset | resetRelease | lineSignalGained | lineSignalLost => cases hc
  | resetPhase4 =>
    rw [exec_resetPhase4] at h
    exact .inr (running_keeps h hs.cells (State.CellsBalance.phase4 hs.cells sound phases))
  | fieldByteArrival p b => rw [exec_fieldByteArrival] at h; exact kept (onPort_keeps h hs fun q => hs.fieldByte q b)
  | fieldEndDelimiter p => rw [exec_fieldEndDelimiter] at h; exact kept (onPort_keeps h hs hs.fieldEnd)
  | ruleSearch => rw [exec_ruleSearch] at h; exact kept (running_keeps h hs hs.searchStage)
  | learnInsert => rw [exec_learnInsert] at h; exact kept (running_keeps h hs hs.learnStage)
  | placement => rw [exec_placement] at h; exact kept (running_keeps h hs hs.placeStage)
  | handoff l => rw [exec_handoff] at h; exact kept (onLane_keeps h hs hs.takeHandoff)
  | idleTimerExpiry l => rw [exec_idleTimerExpiry] at h; exact kept (onLane_keeps h hs (hs.timerExpiry Assembler.idle .idle))
  | ageTimerExpiry l => rw [exec_ageTimerExpiry] at h; exact kept (onLane_keeps h hs (hs.timerExpiry Assembler.age .age))
  | retransmitTimerExpiry l => rw [exec_retransmitTimerExpiry] at h; exact kept (onLane_keeps h hs hs.retransmitExpiry)
  | laneUpdate => rw [exec_laneUpdate] at h; exact kept (running_keeps h hs hs.takeUpdate)
  | sendStart => rw [exec_sendStart] at h; exact kept (running_keeps h hs hs.takeSendStart)
  | noticeBatchRequest => rw [exec_noticeBatchRequest] at h; exact kept (running_keeps h hs hs.takeBatchRequest)
  | linkUp => rw [exec_linkUp] at h; exact kept (running_keeps h hs hs.gainLock)
  | linkDown => rw [exec_linkDown] at h; exact kept (running_keeps h hs hs.loseLock)
  | trunkStartDelimiter =>
    rw [exec_trunkStartDelimiter] at h
    refine kept (running_keeps h hs (hs.ofTrunk ?_))
    unfold Trunk.startInbound
    split <;> rfl
  | trunkByteArrival b =>
    rw [exec_trunkByteArrival] at h
    refine kept (running_keeps h hs (hs.ofTrunk ?_))
    unfold Trunk.inboundByte
    split <;> rfl
  | trunkAbortDelimiter => rw [exec_trunkAbortDelimiter] at h; exact kept (running_keeps h hs (hs.ofTrunk rfl))
  | trunkEndDelimiter => rw [exec_trunkEndDelimiter] at h; exact kept (running_keeps h hs hs.inboundEnd)
  | outboundFrameEnd => rw [exec_outboundFrameEnd] at h; exact kept (running_keeps h hs hs.frameOutEnds)
  | bundleFrameEnd => rw [exec_bundleFrameEnd] at h; exact kept (running_keeps h hs hs.bundleFrameEnds)
  | cutFrameEnd => rw [exec_cutFrameEnd] at h; exact kept (running_keeps h hs hs.cutFrameEnds)
  | commandArrival => rw [exec_commandArrival] at h; exact kept (running_keeps h hs hs.takeArrival)
  | commandEnd => rw [exec_commandEnd] at h; exact kept (running_keeps h hs hs.commandEnds)
  | poolSet => rw [exec_poolSet] at h; exact kept (running_keeps h hs (hs.runCommand fun _ c a h => h.poolSet c a))
  | laneFlush => rw [exec_laneFlush] at h; exact kept (running_keeps h hs (hs.runCommand fun _ c a h => h.laneFlush c a))
  | laneConfig => rw [exec_laneConfig] at h; exact kept (running_keeps h hs (hs.runCommand fun _ c a h => h.laneConfig c a))
  | laneStart =>
    rw [exec_laneStart] at h
    refine kept (running_keeps h hs (State.runCommand_cases s _ _ _ _ (State.Holds 4096) hs (fun _ _ _ _ _ => hs.of_eq rfl rfl rfl) ?_))
    intro c rest a _ _ _ _ _
    have begun : ({ s with mu := { s.mu with queue := rest } } : State).Holds 4096 := hs.of_eq rfl rfl rfl
    exact begun.laneStart (sound.of_eq rfl rfl) c a
  | laneStop => rw [exec_laneStop] at h; exact kept (running_keeps h hs (hs.runCommand fun _ c a h => h.laneStop c a))
  | laneReset => rw [exec_laneReset] at h; exact kept (running_keeps h hs (hs.runCommand fun _ c a h => h.laneReset c a))
  | openSession => rw [exec_openSession] at h; exact kept (running_keeps h hs (hs.runCommand fun _ c a h => h.openSession c a))
  | noticeRearm => rw [exec_noticeRearm] at h; exact kept (running_keeps h hs (hs.runCommand fun _ c a h => h.noticeRearm c a))
  | readCounters => rw [exec_readCounters] at h; exact kept (running_keeps h hs hs.stepReadCounters)
  | resetPhase3 => rw [exec_resetPhase3] at h; exact kept (running_keeps h hs hs.phase3)
  | _ => exact kept (hs.untouched (exec_keepsFootprint h rfl) rfl rfl rfl)

end

/-- Settles O60: every operation moves cells between the pool, one lane and the wire, and phase 4 finds them all free. -/
theorem everyStepKeepsCellsInBalance : Obligations.EveryStepKeepsCellsInBalance := by
  intro s t hd sound phases hs h
  have held {s : State} (h : s.LanesOk ∧ s.PhasesSound ∧ s.CellsBalance) : s.Holds 4096 := ⟨h.2.2, fun l => (h.1 l).1.single⟩
  refine step_gives (P := fun s => s.LanesOk ∧ s.PhasesSound ∧ s.CellsBalance) (Q := State.CellsBalance)
    (fun s rest h => ⟨h.1.of_eq rfl rfl, h.2.1.same ⟨fun _ => .refl _, rfl, rfl, rfl, id⟩, h.2.2⟩) (fun s => ?_) (fun _ h => h.2.2)
    (fun _ _ h => h.2.2) (fun _ _ _ h => h.2.2) (fun s h => ?_) (fun c s t h => (held h).exec h.1 h.2.1) hd
    ⟨((s.lanesSound_iff).mp sound).1, phases, hs⟩ h
  · have lanes : s.powerOn.laneCells = 0 := Finset.sum_eq_zero fun l _ => by rw [s.powerOn_lane, Lane.cells_powerOn]
    change 4096 + s.powerOn.laneCells + 0 = 4096
    rw [lanes]
  · unfold State.tick
    split
    · exact ((held h).mapLanes (g := Lane.tick (s.deviceTime + 1)) (by rfl) (fun _ => .of_eq rfl rfl rfl rfl) (by rfl) (by rfl)).cells
    · exact h.2.2

end Sys2Proof.Machine

/-! What the events of a running part do, and how a management command begins. Proofs of O7 to O11. -/

namespace Sys2Proof.Machine

/-! ## A running part -/

section
variable {s : State}

theorem onPort_of_resetN (h : s.resetN = true) (p : PortId) (f : PortId → State → State) : onPort p f s = .next (f p s) := by
  unfold onPort
  rw [dif_pos p.isLt, running_of_resetN _ h]

theorem onLane_of_resetN (h : s.resetN = true) (l : LaneId) (f : LaneId → State → State) : onLane l f s = .next (f l s) := by
  unfold onLane
  rw [dif_pos l.isLt, running_of_resetN _ h]

end

/-! ## The beginning of a management command (R173 to R176) -/

/-- The command at the head of the queue has left it. -/
def State.dequeued (s : State) (rest : List Command) : State := { s with mu := { s.mu with queue := rest } }

section
variable {s : State} {c : Command} {rest : List Command} {code : Byte}

theorem State.beginCommand_of_begins (h : s.begins code c rest) (mine : Byte → Bool) (hm : mine code = true) :
    s.beginCommand mine = some (c, s.dequeued rest) := by
  obtain ⟨-, idle, queued, coded⟩ := h
  unfold State.beginCommand
  rw [idle, queued]
  dsimp only
  rw [coded, hm]
  rfl

variable {α : Type} {parse : List Byte → Option α} {need : α → SessionNeed} {effect : State → Command → α → State} {a : α}

/-- A command whose parameters are read and that passes the session check goes on to its own effect. -/
theorem running_runCommand (h : s.begins code c rest) (parsed : parse c.params = some a)
    (allowed : sessionCheck (need a) c.epoch s.mu.epoch = none) :
    running (fun s => s.runCommand code parse need effect) s = .next (effect (s.dequeued rest) c a) := by
  rw [running_of_resetN _ h.1]
  unfold State.runCommand
  rw [State.beginCommand_of_begins h (· == code) (beq_self_eq_true code)]
  dsimp only
  rw [parsed]
  dsimp only
  rw [show (s.dequeued rest).mu.epoch = s.mu.epoch from rfl, allowed]

theorem sessionCheck_of_matching {epoch : Word} (h : s.mu.epoch = some epoch) (need : SessionNeed) :
    sessionCheck need epoch s.mu.epoch = none := by
  rw [h]
  cases need <;> simp [sessionCheck]

theorem sessionCheck_readOnly {epoch : Word} (h : epoch = 0 ∨ s.mu.epoch = some epoch) :
    sessionCheck .readOnly epoch s.mu.epoch = none := by
  unfold sessionCheck
  exact if_pos h

theorem State.dequeued_finish (s : State) (c : Command) (rest : List Command) (st : Status) (bytes : List Byte) :
    (s.dequeued rest).finish c st bytes = s.answered c rest st bytes := rfl

end

/-! ## The commands of a session, from their beginning to their effect -/

section
variable {s : State} {c : Command} {rest : List Command}

theorem exec_portSet_begins {a : PortSetParams} (hb : s.begins 0x10 c rest) (he : s.mu.epoch = some c.epoch)
    (parsed : readWhole readPortSet c.params = some a) : exec .portSet s = .next ((s.dequeued rest).portSet c a) :=
  running_runCommand hb parsed (sessionCheck_of_matching he _)

theorem exec_streamWrite_begins {a : StreamWriteParams} (hb : s.begins 0x20 c rest) (he : s.mu.epoch = some c.epoch)
    (parsed : readWhole readStreamWrite c.params = some a) : exec .streamWrite s = .next ((s.dequeued rest).streamWrite c a) :=
  running_runCommand hb parsed (sessionCheck_of_matching he _)

theorem exec_streamDelete_begins {a : RawKey} (hb : s.begins 0x21 c rest) (he : s.mu.epoch = some c.epoch)
    (parsed : readWhole readKey c.params = some a) : exec .streamDelete s = .next ((s.dequeued rest).streamDelete c a) :=
  running_runCommand hb parsed (sessionCheck_of_matching he _)

theorem exec_ruleStage_begins {a : RuleStageParams} (hb : s.begins 0x30 c rest) (he : s.mu.epoch = some c.epoch)
    (parsed : readWhole readRuleStage c.params = some a) : exec .ruleStage s = .next ((s.dequeued rest).ruleStage c a) :=
  running_runCommand hb parsed (sessionCheck_of_matching he _)

theorem exec_ruleApply_begins {a : Unit} (hb : s.begins 0x31 c rest) (he : s.mu.epoch = some c.epoch)
    (parsed : readWhole readNothing c.params = some a) : exec .ruleApply s = .next ((s.dequeued rest).ruleApply c a) :=
  running_runCommand hb parsed (sessionCheck_of_matching he _)

theorem exec_classWrite_begins {a : ClassWriteParams} (hb : s.begins 0x33 c rest) (he : s.mu.epoch = some c.epoch)
    (parsed : readWhole readClassWrite c.params = some a) : exec .classWrite s = .next ((s.dequeued rest).classWrite c a) :=
  running_runCommand hb parsed (sessionCheck_of_matching he _)

theorem exec_spreadWrite_begins {a : SpreadWriteParams} (hb : s.begins 0x34 c rest) (he : s.mu.epoch = some c.epoch)
    (parsed : readWhole readSpreadWrite c.params = some a) : exec .spreadWrite s = .next ((s.dequeued rest).spreadWrite c a) :=
  running_runCommand hb parsed (sessionCheck_of_matching he _)

theorem exec_poolSet_begins {a : PoolSetParams} (hb : s.begins 0x40 c rest) (he : s.mu.epoch = some c.epoch)
    (parsed : readWhole readPoolSet c.params = some a) : exec .poolSet s = .next ((s.dequeued rest).poolSet c a) :=
  running_runCommand hb parsed (sessionCheck_of_matching he _)

theorem exec_laneFlush_begins {a : Byte} (hb : s.begins 0x50 c rest) (he : s.mu.epoch = some c.epoch)
    (parsed : readWhole read8 c.params = some a) : exec .laneFlush s = .next ((s.dequeued rest).laneFlush c a) :=
  running_runCommand hb parsed (sessionCheck_of_matching he _)

theorem exec_laneConfig_begins {a : LaneConfigParams} (hb : s.begins 0x51 c rest) (he : s.mu.epoch = some c.epoch)
    (parsed : readWhole readLaneConfig c.params = some a) : exec .laneConfig s = .next ((s.dequeued rest).laneConfig c a) :=
  running_runCommand hb parsed (sessionCheck_of_matching he _)

theorem exec_laneStart_begins {a : Byte} (hb : s.begins 0x52 c rest) (he : s.mu.epoch = some c.epoch)
    (parsed : readWhole read8 c.params = some a) : exec .laneStart s = .next ((s.dequeued rest).laneStart c a) :=
  running_runCommand hb parsed (sessionCheck_of_matching he _)

theorem exec_laneStop_begins {a : Byte} (hb : s.begins 0x53 c rest) (he : s.mu.epoch = some c.epoch)
    (parsed : readWhole read8 c.params = some a) : exec .laneStop s = .next ((s.dequeued rest).laneStop c a) :=
  running_runCommand hb parsed (sessionCheck_of_matching he _)

theorem exec_laneReset_begins {a : Byte} (hb : s.begins 0x54 c rest) (he : s.mu.epoch = some c.epoch)
    (parsed : readWhole read8 c.params = some a) : exec .laneReset s = .next ((s.dequeued rest).laneReset c a) :=
  running_runCommand hb parsed (sessionCheck_of_matching he _)

theorem exec_closeSession_begins {a : Unit} (hb : s.begins 0x02 c rest) (he : s.mu.epoch = some c.epoch)
    (parsed : readWhole readNothing c.params = some a) : exec .closeSession s = .next ((s.dequeued rest).closeSession c a) :=
  running_runCommand hb parsed (sessionCheck_of_matching he _)

theorem exec_datapathReset_begins {a : Unit} (hb : s.begins 0x04 c rest) (he : s.mu.epoch = some c.epoch)
    (parsed : readWhole readNothing c.params = some a) : exec .datapathReset s = .next ((s.dequeued rest).datapathReset c a) :=
  running_runCommand hb parsed (sessionCheck_of_matching he _)

theorem exec_noticeRearm_begins {a : NoticeRearmParams} (hb : s.begins 0x60 c rest) (he : s.mu.epoch = some c.epoch)
    (parsed : readWhole readNoticeRearm c.params = some a) : exec .noticeRearm s = .next ((s.dequeued rest).noticeRearm c a) :=
  running_runCommand hb parsed (sessionCheck_of_matching he _)

end

/-! ## Codes (R201, R202) -/

theorem portOf_eq {b : Byte} {p : PortId} (h : b.toNat = p.val) : portOf b = some p := by
  unfold portOf
  rw [dif_pos (h ▸ p.isLt)]
  exact congrArg some (Fin.ext h)

theorem portOf_none {b : Byte} (h : 8 ≤ b.toNat) : portOf b = none := dif_neg (Nat.not_lt.mpr h)

theorem laneOf_eq {b : Byte} {l : LaneId} (h : b.toNat = l.val) : laneOf b = some l := by
  unfold laneOf
  rw [dif_pos (h ▸ l.isLt)]
  exact congrArg some (Fin.ext h)

theorem laneOf_none {b : Byte} (h : 16 ≤ b.toNat) : laneOf b = none := dif_neg (Nat.not_lt.mpr h)

theorem classOf_eq {b : Byte} {k : ClassId} (h : b.toNat = k.val) : classOf b = some k := by
  unfold classOf
  rw [dif_pos (h ▸ k.isLt)]
  exact congrArg some (Fin.ext h)

theorem classOf_none {b : Byte} (h : 8 ≤ b.toNat) : classOf b = none := dif_neg (Nat.not_lt.mpr h)

theorem indexOf_eq {b : Byte} {i : Fin 64} (h : b.toNat = i.val) : indexOf b = some i := by
  unfold indexOf
  rw [dif_pos (h ▸ i.isLt)]
  exact congrArg some (Fin.ext h)

theorem indexOf_none {b : Byte} (h : 64 ≤ b.toNat) : indexOf b = none := dif_neg (Nat.not_lt.mpr h)

/-- A number of one byte is sent as the byte it was read from. -/
theorem enc8_of_toNat {b : Byte} {n : Nat} (h : b.toNat = n) : enc8 n = [b] := by
  unfold enc8
  rw [← h, BitVec.ofNat_toNat, BitVec.setWidth_eq]

theorem flag_of_zero : ((0 : Byte) != 0) = false := rfl

theorem flag_of_ne {b : Byte} (h : b ≠ 0) : (b != 0) = true := by simpa using h

end Sys2Proof.Machine

namespace Sys2Proof.Machine

/-! ## The field ports (chapter 1) -/

theorem Port.cutReception_of_none {q : Port} (h : q.reception = none) : q.cutReception = q := by
  unfold Port.cutReception
  rw [h]

/-- The counters after the end of a frame in reception that a signal loss or a start delimiter cuts (R15, R16, R23). -/
def Port.cutCounters (q : Port) : PortCounters :=
  match q.reception with
  | none | some .spent => q.counters
  | some (.accept _) | some .tooLong => { q.counters with truncated := satInc q.counters.truncated }
  | some .discard => { q.counters with disabledDiscards := satInc q.counters.disabledDiscards }
  | some .reset => { q.counters with resetDiscards := satInc q.counters.resetDiscards }

/-- A cut removes the frame, counts it, and releases the bytes that it stored. -/
theorem Port.cutReception_eq (q : Port) : q.cutReception = { q with
    reception := none
    fifoHigh := if q.accepting then q.fifoHigh && decide (1024 < q.cutReception.fill) else q.fifoHigh
    counters := q.cutCounters } := by
  obtain ⟨state, signal, taken, complete, reception, high, bad, mark, counters⟩ := q
  rcases reception with _ | ⟨_⟩ | _ | _ | _ | _ <;> rfl

/-- A loss of signal is a cut, and the state and the indication that R4 gives. -/
theorem Port.loseSignal_eq (q : Port) : q.loseSignal = { q with
    signal := false
    state := if q.state = .up then .down else q.state
    reception := none
    fifoHigh := if q.accepting then q.fifoHigh && decide (1024 < q.cutReception.fill) else q.fifoHigh
    counters := q.cutCounters } := by
  obtain ⟨state, signal, taken, complete, reception, high, bad, mark, counters⟩ := q
  rcases reception with _ | ⟨_⟩ | _ | _ | _ | _ <;> rfl

theorem exec_fieldStartDelimiter_of_resetN {s : State} (h : s.resetN = true) (p : PortId) :
    exec (.fieldStartDelimiter p) s = .next (s.setPort p (s.port p).startFrame) := by
  rw [exec_fieldStartDelimiter, onPort_of_resetN h]

theorem exec_fieldByteArrival_of_resetN {s : State} (h : s.resetN = true) (p : PortId) (b : Byte) :
    exec (.fieldByteArrival p b) s = .next (s.fieldByte p b) := by
  rw [exec_fieldByteArrival, onPort_of_resetN h]

theorem exec_fieldEndDelimiter_of_resetN {s : State} (h : s.resetN = true) (p : PortId) :
    exec (.fieldEndDelimiter p) s = .next (s.fieldEnd p) := by
  rw [exec_fieldEndDelimiter, onPort_of_resetN h]

/-- Settles O7: the two events are functions of the port, and a loss of signal is a cut of the frame in reception. -/
theorem signalChangesMoveThePort : Obligations.SignalChangesMoveThePort := by
  refine ⟨fun s p x => ⟨rfl, rfl, s.port_setPort p x, fun q hq => s.port_setPort_ne x hq, rfl⟩, fun p s => ?_, fun p s => ?_⟩
  · exact exec_lineSignalGained s p
  · have lost := (s.port p).loseSignal_eq
    exact ⟨(s.port p).loseSignal, exec_lineSignalLost s p, by rw [lost], by rw [lost], by rw [lost], by rw [lost], by rw [lost],
      by rw [lost], by rw [lost], congrArg Port.counters lost, congrArg Port.fifoHigh lost⟩

/-- The modes of R9's table. -/
theorem Port.startFrame_of_mode {q : Port} {mode : Reception} (h : q.startMode = some mode) :
    q.startFrame = { q.cutReception with reception := some mode } := by
  unfold Port.startFrame
  rw [h]

/-- Settles O8: the cut of O7, and the mode by the reset mark and the port state. -/
theorem startDelimiterGivesTheMode : Obligations.StartDelimiterGivesTheMode := by
  refine ⟨fun q => ⟨?_, q.cutReception_of_none, fun _ => ⟨_, q.cutReception_eq, rfl⟩⟩, fun p s running => ?_⟩
  · unfold Port.accepting
    split <;> simp_all
  · refine ⟨(s.port p).startFrame, exec_fieldStartDelimiter_of_resetN running p, fun mark => ?_, fun mark up => ?_,
      fun mark off => ?_, fun mark down => ?_⟩
    · exact Port.startFrame_of_mode (by simp [Port.startMode, mark])
    · exact Port.startFrame_of_mode (by simp [Port.startMode, mark, up])
    · exact Port.startFrame_of_mode (by rcases off with off | off <;> simp [Port.startMode, mark, off])
    · have none : (s.port p).startMode = none := by simp [Port.startMode, mark, down]
      unfold Port.startFrame
      rw [none]

/-! ## The bytes and the end of a frame -/

section
variable {q : Port} {bytes : List Byte}

theorem Port.fill_of_accept (h : q.reception = some (.accept bytes)) :
    q.fill = (q.taken.getD []).length + (q.complete.map List.length).sum + bytes.length := by
  rw [q.fill_eq]
  unfold Port.storing
  rw [h]

/-- A port whose ACCEPT frame leaves the FIFO, its other frames as they are. -/
theorem Port.fill_of_removed {q' : Port} (h : q.reception = some (.accept bytes)) (quiet : q'.storing = 0)
    (taken : q'.taken = q.taken) (complete : q'.complete = q.complete) : q'.fill = q.fill - bytes.length := by
  rw [q'.fill_eq, quiet, taken, complete, Port.fill_of_accept h]
  omega

theorem Port.markTooLong_eq (h : q.reception = some (.accept bytes)) : q.markTooLong = { q with
    reception := some .tooLong, fifoHigh := q.fifoHigh && decide (1024 < q.fill - bytes.length) } := by
  rw [← Port.fill_of_removed (q' := { q with reception := some .tooLong }) h rfl rfl rfl]
  rfl

theorem Port.overflow_eq (h : q.reception = some (.accept bytes)) : q.overflow = { q with
    reception := some .spent
    counters := { q.counters with overflows := satInc q.counters.overflows }
    fifoHigh := q.fifoHigh && decide (1024 < q.fill - bytes.length) } := by
  rw [← Port.fill_of_removed (q' := { q with reception := some .spent }) h rfl rfl rfl]
  rfl

theorem Port.storeByte_eq (h : q.reception = some (.accept bytes)) (b : Byte) : q.storeByte bytes b = { q with
    reception := some (.accept (bytes ++ [b])), fifoHigh := q.fifoHigh || decide (3072 ≤ q.fill + 1) } := by
  have fill : ({ q with reception := some (.accept (bytes ++ [b])) } : Port).fill = q.fill + 1 := by
    rw [Port.fill_of_accept (bytes := bytes ++ [b]) rfl, Port.fill_of_accept h, List.length_append, List.length_singleton]
    rfl
  rw [← fill]
  rfl

end

/-- Settles O9: the three cases of a byte of an ACCEPT frame, in the order of R11 and R12. -/
theorem fieldByteIsStoredOrEndsTheFrame : Obligations.FieldByteIsStoredOrEndsTheFrame := by
  refine ⟨fun q => q.fill_eq, fun p b s running => ?_⟩
  rw [exec_fieldByteArrival_of_resetN running]
  unfold State.fieldByte
  refine ⟨fun bytes h => ?_, fun h => ?_⟩
  · dsimp only
    rw [h]
    dsimp only
    refine ⟨fun long => ?_, fun short full => ?_, fun short room => ?_⟩
    · rw [if_pos (by exact long), Port.markTooLong_eq h]
    · rw [if_neg (by exact Nat.not_le.mpr short), if_pos (by exact full), Port.overflow_eq h]
    · rw [if_neg (by exact Nat.not_le.mpr short), if_neg (by exact Nat.not_le.mpr room), Port.storeByte_eq h]
  · dsimp only
    split
    · exact absurd ‹_› (h _)
    · rfl

/-- The end of a frame that fails check 1 or 2 of R13, with the counter that it takes. -/
theorem Port.badFrame_facts (q : Port) (f : PortCounters → PortCounters) :
    (q.badFrame f).reception = none ∧ (q.badFrame f).taken = q.taken ∧ (q.badFrame f).signal = q.signal
      ∧ (q.badFrame f).resetMark = q.resetMark ∧ (q.badFrame f).counters = f q.counters ∧ (q.badFrame f).complete = q.complete
      ∧ (q.badFrame f).badCount = q.badCount + 1
      ∧ (q.badFrame f).state = (if decide (q.badCount + 1 = 16) then .fault else q.state)
      ∧ (q.badFrame f).fifoHigh = (q.fifoHigh && decide (1024 < (q.badFrame f).fill)) := by
  refine ⟨rfl, rfl, rfl, rfl, rfl, rfl, rfl, ?_, rfl⟩
  simp only [decide_eq_true_eq]
  rfl

theorem State.badFrameEnds_eq (s : State) (p : PortId) (f : PortCounters → PortCounters) :
    s.badFrameEnds p f = if decide ((s.port p).badCount + 1 = 16) then
      ((s.setPort p ((s.port p).badFrame f)).raise (srcPortFault p)).arbitrate else s.setPort p ((s.port p).badFrame f) := by
  unfold State.badFrameEnds
  simp only [decide_eq_true_eq]
  rfl

theorem State.setPort_self (s : State) (p : PortId) : s.setPort p (s.port p) = s := by
  simp [State.setPort, State.port]

/-- Settles O10: the frame in reception decides, and an ACCEPT frame by length, frame check and kind. -/
theorem endDelimiterJudgesTheFrame : Obligations.EndDelimiterJudgesTheFrame := by
  intro p s running
  rw [exec_fieldEndDelimiter_of_resetN running]
  have bad (f : PortCounters → PortCounters) := (s.port p).badFrame_facts f
  unfold State.fieldEnd
  dsimp only
  rcases hr : (s.port p).reception with _ | ⟨bytes⟩ | _ | _ | _ | _
  · have same : s.port p = { s.port p with reception := none } := by rw [← hr]
    refine ⟨_, false, congrArg _ (s.setPort_self p).symm, hr, rfl, rfl, rfl, fun f h => absurd h (by simp), nofun, fun f h => ?_⟩
    have kept : f = id := by simpa using h
    exact ⟨rfl, kept ▸ same⟩
  · have accepted {P : List Byte → Prop} (h : P bytes) :
        ∀ x, some (Reception.accept bytes) = some (.accept x) → P x := fun x e => by cases e; exact h
    dsimp only
    by_cases length : bytes.length < 11 ∨ 1024 < bytes.length
    · rw [if_pos (by exact length), State.badFrameEnds_eq]
      obtain ⟨reception, taken, signal, mark, counters, complete, count, state, high⟩ :=
        bad fun c => { c with lengthErrors := satInc c.lengthErrors }
      refine ⟨_, _, rfl, reception, taken, signal, mark, fun f h => ?_, ?_, fun f h => absurd h (by simp)⟩
      · have counter : f = fun c => { c with lengthErrors := satInc c.lengthErrors } := by
          rcases h with ⟨_, h⟩ | ⟨⟨_, e, low, up, _⟩, _⟩
          · exact h
          · cases e; omega
        rw [counter]
        exact ⟨counters, complete, count, rfl, state, high⟩
      · exact accepted (P := fun x => 11 ≤ x.length → x.length ≤ 1024 → _) (fun low up => by omega)
    · rw [if_neg (by exact length)]
      by_cases check : checkCorrect bytes = false
      · rw [if_pos check, State.badFrameEnds_eq]
        obtain ⟨reception, taken, signal, mark, counters, complete, count, state, high⟩ :=
          bad fun c => { c with checkErrors := satInc c.checkErrors }
        refine ⟨_, _, rfl, reception, taken, signal, mark, fun f h => ?_, ?_, fun f h => absurd h (by simp)⟩
        · have counter : f = fun c => { c with checkErrors := satInc c.checkErrors } := by
            rcases h with ⟨h | ⟨_, e, h⟩, _⟩ | ⟨_, h⟩
            · cases h
            · cases e; exact absurd h length
            · exact h
          rw [counter]
          exact ⟨counters, complete, count, rfl, state, high⟩
        · exact fun x e low up correct => by cases e; rw [check] at correct; cases correct
      · rw [if_neg check]
        have sound (f : PortCounters → PortCounters) (h : ((some (Reception.accept bytes) = some .tooLong
              ∨ (∃ x, some (Reception.accept bytes) = some (.accept x) ∧ (x.length < 11 ∨ 1024 < x.length)))
              ∧ f = (fun c => { c with lengthErrors := satInc c.lengthErrors })
            ∨ (∃ x, some (Reception.accept bytes) = some (.accept x) ∧ 11 ≤ x.length ∧ x.length ≤ 1024 ∧ checkCorrect x = false)
              ∧ f = (fun c => { c with checkErrors := satInc c.checkErrors }))) : False := by
          rcases h with ⟨h | ⟨_, e, h⟩, _⟩ | ⟨⟨_, e, _, _, h⟩, _⟩
          · cases h
          · cases e; exact length h
          · cases e; exact check h
        split
        · rename_i kind
          refine ⟨(s.port p).unknownFrame, false, rfl, rfl, rfl, rfl, rfl, fun f h => (sound f h).elim, fun x e _ _ _ => ?_,
            fun f h => absurd h (by simp)⟩
          cases e
          exact ⟨rfl, rfl, rfl, fun data => absurd data kind, fun _ => ⟨rfl, rfl, rfl⟩⟩
        · rename_i kind
          refine ⟨(s.port p).goodFrame bytes, false, rfl, rfl, rfl, rfl, rfl, fun f h => (sound f h).elim, fun x e _ _ _ => ?_,
            fun f h => absurd h (by simp)⟩
          cases e
          exact ⟨rfl, rfl, rfl, fun _ => ⟨rfl, rfl, rfl⟩, fun other => absurd other kind⟩
  · rw [State.badFrameEnds_eq]
    obtain ⟨reception, taken, signal, mark, counters, complete, count, state, high⟩ :=
      bad fun c => { c with lengthErrors := satInc c.lengthErrors }
    refine ⟨_, _, rfl, reception, taken, signal, mark, fun f h => ?_, nofun, fun f h => absurd h (by simp)⟩
    have counter : f = fun c => { c with lengthErrors := satInc c.lengthErrors } := by simpa using h
    rw [counter]
    exact ⟨counters, complete, count, rfl, state, high⟩
  · refine ⟨_, false, rfl, rfl, rfl, rfl, rfl, fun f h => absurd h (by simp), nofun, fun f h => ?_⟩
    have kept : f = id := by simpa using h
    rw [kept]
    exact ⟨rfl, rfl⟩
  · refine ⟨_, false, rfl, rfl, rfl, rfl, rfl, fun f h => absurd h (by simp), nofun, fun f h => ?_⟩
    have counter : f = fun c => { c with disabledDiscards := satInc c.disabledDiscards } := by simpa using h
    rw [counter]
    exact ⟨rfl, rfl⟩
  · refine ⟨_, false, rfl, rfl, rfl, rfl, rfl, fun f h => absurd h (by simp), nofun, fun f h => ?_⟩
    have counter : f = fun c => { c with resetDiscards := satInc c.resetDiscards } := by simpa using h
    rw [counter]
    exact ⟨rfl, rfl⟩

/-! ## PORT_SET (R6, R7) -/

section
variable {s : State} {p : PortId} (c : Command)

theorem State.portSet_badRange {a : PortSetParams} (h : portOf a.port = none) : s.portSet c a = s.finish c .badRange [] := by
  unfold State.portSet
  rw [h]

theorem State.portSet_enable {a : PortSetParams} (named : portOf a.port = some p) (flag : a.enable = true)
    (off : (s.port p).state = .disabled ∨ (s.port p).state = .fault) :
    s.portSet c a = (s.setPort p (s.port p).enable).finish c .ok (enc8 (s.port p).enable.state.code) := by
  unfold State.portSet
  rw [named]
  dsimp only
  rw [if_pos flag]
  rcases off with off | off <;> rw [off]

theorem State.portSet_enabled {a : PortSetParams} (named : portOf a.port = some p) (flag : a.enable = true)
    (on : (s.port p).state = .down ∨ (s.port p).state = .up) :
    s.portSet c a = s.finish c .already (enc8 (s.port p).state.code) := by
  unfold State.portSet
  rw [named]
  dsimp only
  rw [if_pos flag]
  rcases on with on | on <;> rw [on]

theorem State.portSet_disabled {a : PortSetParams} (named : portOf a.port = some p) (flag : a.enable = false)
    (off : (s.port p).state = .disabled) : s.portSet c a = s.finish c .already (enc8 (s.port p).state.code) := by
  unfold State.portSet
  rw [named]
  dsimp only
  rw [if_neg (by simp [flag]), off]

theorem State.portSet_disable {a : PortSetParams} (named : portOf a.port = some p) (flag : a.enable = false)
    (on : (s.port p).state ≠ .disabled) :
    s.portSet c a = (s.setPort p (s.port p).disable).finish c .ok (enc8 PortState.disabled.code) := by
  unfold State.portSet
  rw [named]
  dsimp only
  rw [if_neg (by simp [flag])]
  split
  · exact absurd ‹_› on
  all_goals rfl

end

/-- The frames that a disable or the start of a DATAPATH_RESET leaves: the taken one (R7, R22). -/
theorem Port.discardFrames_eq (q : Port) : q.discardFrames = { q with
    complete := []
    reception := if q.accepting then some .spent else q.reception
    fifoHigh := q.fifoHigh && decide (1024 < (q.taken.getD []).length) } := by
  have fill : ({ q with complete := [], reception := if q.accepting then some .spent else q.reception } : Port).fill
      = (q.taken.getD []).length := by
    rw [Port.fill_eq, Port.storing_of_quiet q.discardFrames_quiet]
    rfl
  rw [← fill]
  rfl

theorem Port.disable_eq (q : Port) : q.disable = { q with
    state := .disabled
    complete := []
    reception := if q.accepting then some .spent else q.reception
    fifoHigh := q.fifoHigh && decide (1024 < (q.taken.getD []).length)
    counters := { q.counters with
      disabledDiscards := satAdd q.counters.disabledDiscards (q.complete.length + (if q.accepting then 1 else 0)) } } := by
  unfold Port.disable
  rw [q.discardFrames_eq]
  rfl

/-- Settles O11: the table of R6, a row at a time. -/
theorem portSetByItsTable : Obligations.PortSetByItsTable := by
  intro s c rest port flag hb he hp
  rw [exec_portSet_begins (a := ⟨port, flag != 0⟩) hb he (by rw [hp]; rfl)]
  refine ⟨fun high => ?_, fun p named => ⟨fun on => ⟨fun off => ?_, fun down => ?_, fun up => ?_⟩, fun zero => ⟨fun off => ?_, fun off => ?_⟩⟩⟩
  · rw [State.portSet_badRange c (portOf_none high)]
    rfl
  · rw [State.portSet_enable c (portOf_eq named) (flag_of_ne on) (by exact off)]
    refine congrArg _ (congrArg (State.answered _ c rest .ok) ?_)
    change enc8 (if (s.port p).signal then PortState.up else .down).code = _
    split <;> rfl
  · rw [State.portSet_enabled c (portOf_eq named) (flag_of_ne on) (.inl (by exact down))]
    change Host.Outcome.next (s.answered c rest .already (enc8 (s.port p).state.code)) = _
    rw [down]
    rfl
  · rw [State.portSet_enabled c (portOf_eq named) (flag_of_ne on) (.inr (by exact up))]
    change Host.Outcome.next (s.answered c rest .already (enc8 (s.port p).state.code)) = _
    rw [up]
    rfl
  · rw [State.portSet_disabled c (portOf_eq named) (by simp [zero]) (by exact off)]
    change Host.Outcome.next (s.answered c rest .already (enc8 (s.port p).state.code)) = _
    rw [off]
    rfl
  · rw [State.portSet_disable c (portOf_eq named) (by simp [zero]) (by exact off)]
    change Host.Outcome.next ((s.setPort p (s.port p).disable).answered c rest .ok [0]) = _
    rw [(s.port p).disable_eq]

end Sys2Proof.Machine

/-! The take of a frame, its structural check, and the encodings of its fields. Proofs of O12 and O13. -/

namespace Sys2Proof.Machine

/-! ## Byte order (00, Conventions) -/

theorem enc16_toNat (x : BitVec 16) : (enc16 x).map BitVec.toNat = [x.toNat / 2 ^ 8, x.toNat % 2 ^ 8] := by
  have := x.isLt
  simp only [enc16, List.map_cons, List.map_nil, BitVec.extractLsb'_toNat, Nat.shiftRight_eq_div_pow, List.cons.injEq, and_true]
  omega

theorem enc24_toNat (x : BitVec 24) :
    (enc24 x).map BitVec.toNat = [x.toNat / 2 ^ 16, x.toNat / 2 ^ 8 % 2 ^ 8, x.toNat % 2 ^ 8] := by
  have := x.isLt
  simp only [enc24, List.map_cons, List.map_nil, BitVec.extractLsb'_toNat, Nat.shiftRight_eq_div_pow, List.cons.injEq, and_true, true_and]
  omega

theorem enc32_toNat (x : BitVec 32) : (enc32 x).map BitVec.toNat =
    [x.toNat / 2 ^ 24, x.toNat / 2 ^ 16 % 2 ^ 8, x.toNat / 2 ^ 8 % 2 ^ 8, x.toNat % 2 ^ 8] := by
  have := x.isLt
  simp only [enc32, List.map_cons, List.map_nil, BitVec.extractLsb'_toNat, Nat.shiftRight_eq_div_pow, List.cons.injEq, and_true, true_and]
  omega

theorem toNat_append_byte {n : Nat} (x : BitVec n) (b : Byte) : (x ++ b).toNat = 256 * x.toNat + b.toNat := by
  rw [BitVec.toNat_append, ← Nat.shiftLeft_add_eq_or_of_lt b.isLt, Nat.shiftLeft_eq]
  omega

theorem be16_toNat (a b : Byte) : (be16 a b).toNat = 256 * a.toNat + b.toNat := toNat_append_byte a b

theorem be24_toNat (a b c : Byte) : (be24 a b c).toNat = 65536 * a.toNat + 256 * b.toNat + c.toNat := by
  unfold be24
  rw [toNat_append_byte, toNat_append_byte]
  omega

theorem be32_toNat (a b c d : Byte) : (be32 a b c d).toNat = 16777216 * a.toNat + 65536 * b.toNat + 256 * c.toNat + d.toNat := by
  unfold be32
  rw [toNat_append_byte, toNat_append_byte, toNat_append_byte]
  omega

/-- Bytes are told apart by their numbers. -/
theorem bytes_eq_of_toNat {xs ys : List Byte} (h : xs.map BitVec.toNat = ys.map BitVec.toNat) : xs = ys :=
  List.map_injective_iff.mpr (fun _ _ => BitVec.eq_of_toNat_eq) h

theorem enc16_be16 (a b : Byte) : enc16 (be16 a b) = [a, b] := by
  have ha := a.isLt
  have hb := b.isLt
  refine bytes_eq_of_toNat ?_
  rw [enc16_toNat, be16_toNat]
  simp only [List.map_cons, List.map_nil, List.cons.injEq, and_true]
  omega

theorem enc24_be24 (a b c : Byte) : enc24 (be24 a b c) = [a, b, c] := by
  have ha := a.isLt
  have hb := b.isLt
  have hc := c.isLt
  refine bytes_eq_of_toNat ?_
  rw [enc24_toNat, be24_toNat]
  simp only [List.map_cons, List.map_nil, List.cons.injEq, and_true]
  omega

theorem enc32_be32 (a b c d : Byte) : enc32 (be32 a b c d) = [a, b, c, d] := by
  have ha := a.isLt
  have hb := b.isLt
  have hc := c.isLt
  have hd := d.isLt
  refine bytes_eq_of_toNat ?_
  rw [enc32_toNat, be32_toNat]
  simp only [List.map_cons, List.map_nil, List.cons.injEq, and_true]
  omega

/-- Two fields with the same bytes are the same. -/
theorem be16_of_enc16 (x : BitVec 16) {a b : Byte} (h : enc16 x = [a, b]) : be16 a b = x := by
  have hx := x.isLt
  have bytes := enc16_toNat x
  rw [h] at bytes
  simp only [List.map_cons, List.map_nil, List.cons.injEq, and_true] at bytes
  refine BitVec.eq_of_toNat_eq ?_
  rw [be16_toNat]
  omega

theorem be24_of_enc24 (x : BitVec 24) {a b c : Byte} (h : enc24 x = [a, b, c]) : be24 a b c = x := by
  have hx := x.isLt
  have bytes := enc24_toNat x
  rw [h] at bytes
  simp only [List.map_cons, List.map_nil, List.cons.injEq, and_true] at bytes
  refine BitVec.eq_of_toNat_eq ?_
  rw [be24_toNat]
  omega

theorem be32_of_enc32 (x : BitVec 32) {a b c d : Byte} (h : enc32 x = [a, b, c, d]) : be32 a b c d = x := by
  have hx := x.isLt
  have bytes := enc32_toNat x
  rw [h] at bytes
  simp only [List.map_cons, List.map_nil, List.cons.injEq, and_true] at bytes
  refine BitVec.eq_of_toNat_eq ?_
  rw [be32_toNat]
  omega

theorem encCount_toNat {n : Nat} (h : n < 65536) : (encCount n).map BitVec.toNat = [n / 2 ^ 8, n % 2 ^ 8] := by
  unfold encCount
  rw [enc16_toNat, BitVec.toNat_ofNat, Nat.mod_eq_of_lt h]

theorem enc8_toNat {n : Nat} (h : n < 256) : (enc8 n).map BitVec.toNat = [n] := by
  simp only [enc8, List.map_cons, List.map_nil, BitVec.toNat_ofNat]
  rw [Nat.mod_eq_of_lt h]

/-! ## The structural check of a frame (R49) -/

/-- The encoding of a record begins with its seven header bytes. -/
theorem FieldRecord.encode_eq (r : FieldRecord) : ∃ t1 t0 s3 s2 s1 s0 : Byte,
    r.encode = t1 :: t0 :: s3 :: s2 :: s1 :: s0 :: BitVec.ofNat 8 r.value.length :: r.value
      ∧ be16 t1 t0 = r.tag ∧ be32 s3 s2 s1 s0 = r.timestamp :=
  ⟨_, _, _, _, _, _, rfl, be16_of_enc16 _ rfl, be32_of_enc32 _ rfl⟩

theorem FieldRecord.encode_of_bytes (t1 t0 s3 s2 s1 s0 len : Byte) {value : List Byte} (h : value.length = len.toNat) :
    FieldRecord.encode ⟨be16 t1 t0, be32 s3 s2 s1 s0, value⟩ = t1 :: t0 :: s3 :: s2 :: s1 :: s0 :: len :: value := by
  unfold FieldRecord.encode
  rw [enc16_be16, enc32_be32, enc8_of_toNat h.symm]
  rfl

/-- A read takes n records, and leaves nothing of the body. -/
theorem parseRecords_encode {n : Nat} {body : List Byte} {records : List FieldRecord} (h : parseRecords n body = some records) :
    records.length = n ∧ body = records.flatMap FieldRecord.encode := by
  fun_induction parseRecords n body generalizing records with
  | case1 => cases h; exact ⟨rfl, rfl⟩
  | case2 => cases h
  | case3 => cases h
  | case4 n t1 t0 s3 s2 s1 s0 len rest fits rs parsed ih =>
    cases h
    obtain ⟨length, encoded⟩ := ih parsed
    have enough : len.toNat ≤ rest.length := Nat.not_lt.mp (not_or.mp fits).2
    refine ⟨congrArg (· + 1) length, ?_⟩
    rw [List.flatMap_cons, FieldRecord.encode_of_bytes _ _ _ _ _ _ len (List.length_take_of_le enough), ← encoded]
    simp
  | case5 => cases h
  | case6 => cases h

/-- A read of n records is exact: it finds the records whose encodings the body is. -/
theorem parseRecords_iff (n : Nat) (body : List Byte) (records : List FieldRecord) : parseRecords n body = some records ↔
    records.length = n ∧ body = records.flatMap FieldRecord.encode ∧ ∀ r ∈ records, r.value.length ≤ 64 := by
  constructor
  · intro h
    refine ⟨(parseRecords_encode h).1, (parseRecords_encode h).2, parseRecords_values h⟩
  · rintro ⟨rfl, rfl, values⟩
    induction records with
    | nil => rfl
    | cons r rs ih =>
      obtain ⟨t1, t0, s3, s2, s1, s0, bytes, tag, stamp⟩ := r.encode_eq
      have short : r.value.length ≤ 64 := values r (List.mem_cons_self ..)
      have length : (BitVec.ofNat 8 r.value.length).toNat = r.value.length := by
        rw [BitVec.toNat_ofNat, Nat.mod_eq_of_lt (by omega)]
      have rest := ih fun x hx => values x (List.mem_cons_of_mem _ hx)
      rw [List.flatMap_cons, bytes, List.length_cons]
      simp only [List.cons_append, parseRecords, length]
      rw [if_neg (by simp; omega), List.drop_left, rest, List.take_left, tag, stamp]

theorem parseFieldFrame_iff (bytes : List Byte) (station : Station) (records : List FieldRecord) :
    parseFieldFrame bytes = some (station, records) ↔ ∃ kind : Byte, frameBody bytes =
        enc24 station ++ [kind] ++ enc8 records.length ++ records.flatMap FieldRecord.encode
      ∧ 1 ≤ records.length ∧ records.length ≤ 32 ∧ ∀ r ∈ records, r.value.length ≤ 64 := by
  constructor
  · intro h
    unfold parseFieldFrame at h
    split at h
    · rename_i s2 s1 s0 kind count body shape
      split at h
      · cases h
      · rename_i counted
        obtain ⟨rs, parsed, same⟩ := Option.map_eq_some_iff.mp h
        cases same
        obtain ⟨length, encoded, values⟩ := (parseRecords_iff _ _ _).mp parsed
        obtain ⟨some_, most⟩ := not_or.mp counted
        have positive : 1 ≤ count.toNat := by
          rw [Nat.one_le_iff_ne_zero]
          exact fun zero => some_ (BitVec.eq_of_toNat_eq zero)
        refine ⟨kind, ?_, length ▸ positive, length ▸ Nat.not_lt.mp most, values⟩
        rw [shape, enc24_be24, enc8_of_toNat length.symm, ← encoded]
        rfl
    · cases h
  · rintro ⟨kind, shape, positive, most, values⟩
    have length : (BitVec.ofNat 8 records.length).toNat = records.length := by
      rw [BitVec.toNat_ofNat, Nat.mod_eq_of_lt (by omega)]
    have body : frameBody bytes = station.extractLsb' 16 8 :: station.extractLsb' 8 8 :: station.extractLsb' 0 8 :: kind
        :: BitVec.ofNat 8 records.length :: records.flatMap FieldRecord.encode := shape
    have parsed := (parseRecords_iff records.length (records.flatMap FieldRecord.encode) records).mpr ⟨rfl, rfl, values⟩
    have counted : ¬(BitVec.ofNat 8 records.length = 0 ∨ Config.recordsPerFrame < (BitVec.ofNat 8 records.length).toNat) := by
      rw [length]
      refine not_or.mpr ⟨fun zero => ?_, Nat.not_lt.mpr most⟩
      rw [zero] at length
      exact absurd length (by simp; omega)
    unfold parseFieldFrame
    rw [body]
    dsimp only
    rw [if_neg counted, length, parsed, be24_of_enc24 station rfl]
    rfl

/-- Settles O13: the bytes of each field by their numbers, and the check of a frame as a read that is exact. -/
theorem soundFramesAreEncodedRecords : Obligations.SoundFramesAreEncodedRecords :=
  ⟨⟨enc16_toNat, enc24_toNat, enc32_toNat, fun _ => enc8_toNat, fun _ => encCount_toNat,
    fun a b c => ⟨be16_toNat a b, be24_toNat a b c⟩, rfl, rfl, rfl, rfl, fun _ => ⟨rfl, rfl⟩⟩, parseFieldFrame_iff⟩

/-! ## FRAME_TAKE (R48, R49, R50) -/

section
variable {s : State} {p : PortId} {frame : List Byte} {rest : List (List Byte)}

/-- A port offers its oldest complete frame while it has no taken one (R17). -/
theorem Port.offer_eq {q : Port} (free : q.taken = none) (complete : q.complete = frame :: rest) :
    q.offer = some (frame, { q with taken := some frame, complete := rest }) := by
  unfold Port.offer
  rw [free, complete]

theorem Port.offer_none {q : Port} (h : q.taken ≠ none ∨ q.complete = []) : q.offer = none := by
  unfold Port.offer
  split
  · rename_i free full
    rcases h with h | h
    · exact absurd free h
    · rw [h] at full; cases full
  · rfl

/-- The search from the round-robin position finds the first offering port. -/
theorem State.offering_eq (h : s.Offers p frame rest) : s.offering = some p := by
  obtain ⟨free, complete, k, rfl, before⟩ := h
  unfold State.offering searchOrder
  rw [List.find?_map]
  have found : (List.finRange 8).find? ((fun p => (s.port p).offer.isSome) ∘ fun k => s.classifier.position + k) = some k := by
    refine find_eq_some_of_getElem k.val (finRange_getElem _ k.isLt) ?_ fun j y hj hy => ?_
    · simp [Port.offer_eq free complete]
    · rw [finRange_getElem j (by omega)] at hy
      cases hy
      simp [Port.offer_none (before ⟨j, by omega⟩ hj)]
  rw [found]
  rfl

theorem State.offering_none (h : ∀ p, (s.port p).taken ≠ none ∨ (s.port p).complete = []) : s.offering = none := by
  unfold State.offering
  rw [List.find?_eq_none]
  intro p _
  simp [Port.offer_none (h p)]

theorem State.countPort_setPort (s : State) (p : PortId) (q : Port) (f : PortCounters → PortCounters) :
    (s.setPort p q).countPort p f = s.setPort p { q with counters := f q.counters } := by
  unfold State.countPort
  rw [State.port_setPort, State.setPort_setPort]

/-- A port whose offered frame is taken. -/
def Port.taking (q : Port) (frame : List Byte) (rest : List (List Byte)) : Port := { q with taken := some frame, complete := rest }

/-- The state when the Classifier has taken a frame and not yet judged it. -/
def State.taking (s : State) (p : PortId) (frame : List Byte) (rest : List (List Byte)) : State :=
  { s.setPort p ((s.port p).taking frame rest) with classifier := { s.classifier with position := p + 1 } }

/-- A MALFORMED frame gives back the bytes that it stored (R17, R49). -/
theorem Port.fill_taking {q : Port} (free : q.taken = none) (complete : q.complete = frame :: rest) :
    ({ q.taking frame rest with taken := none } : Port).fill = q.fill - frame.length := by
  rw [Port.fill_eq, Port.fill_eq q, free, complete, List.map_cons, List.sum_cons]
  change 0 + (rest.map List.length).sum + q.storing = 0 + (frame.length + (rest.map List.length).sum) + q.storing - frame.length
  omega

theorem State.taking_countPort (f : PortCounters → PortCounters) : (s.taking p frame rest).countPort p f =
    { s.setPort p { (s.port p).taking frame rest with counters := f (s.port p).counters } with
      classifier := { s.classifier with position := p + 1 } } :=
  congrArg (fun t : State => { t with classifier := { s.classifier with position := p + 1 } })
    (s.countPort_setPort p ((s.port p).taking frame rest) f)

theorem State.setPort_release (s : State) (p : PortId) (q : Port) :
    (s.setPort p q).setPort p ((s.setPort p q).port p).release = s.setPort p q.release := by
  rw [State.port_setPort, State.setPort_setPort]

variable (idle : s.classifier.frame = none) (offers : s.Offers p frame rest)
include idle offers

theorem State.takeFrame_of_sound {station : Station} {records : List FieldRecord}
    (parsed : parseFieldFrame frame = some (station, records)) :
    s.takeFrame = (s.taking p frame rest).beginRecord { port := p, station, records } 0 := by
  unfold State.takeFrame
  rw [idle, State.offering_eq offers]
  dsimp only
  rw [Port.offer_eq offers.1 offers.2.1]
  dsimp only
  rw [parsed]
  rfl

theorem State.takeFrame_of_malformed (malformed : parseFieldFrame frame = none) :
    s.takeFrame = ((s.taking p frame rest).countPort p fun c => { c with malformed := satInc c.malformed }).setPort p
      (((s.taking p frame rest).countPort p fun c => { c with malformed := satInc c.malformed }).port p).release := by
  unfold State.takeFrame
  rw [idle, State.offering_eq offers]
  dsimp only
  rw [Port.offer_eq offers.1 offers.2.1]
  dsimp only
  rw [malformed]
  rfl

end

/-- Settles O12: the search finds the offering port, and the check of the frame decides. -/
theorem frameTakeServesTheFirstOffer : Obligations.FrameTakeServesTheFirstOffer := by
  refine ⟨fun s p frame rest running idle offers => ?_, fun s running none => ?_⟩
  · rw [exec_frameTake, running_of_resetN _ running]
    refine ⟨fun station records parsed => ?_, fun malformed => ?_⟩
    · rw [State.takeFrame_of_sound idle offers parsed]
      exact congrArg (fun t : State => Host.Outcome.next { t with
        classifier := { s.classifier with position := p + 1, frame := some ⟨p, station, records, 0, .lookup⟩ } })
        (s.countPort_setPort p ((s.port p).taking frame rest) fun c => { c with recordsSeen := satInc c.recordsSeen })
    · rw [State.takeFrame_of_malformed idle offers malformed, State.taking_countPort]
      refine ⟨_, ?_, congrArg (fun n => (s.port p).fifoHigh && decide (1024 < n)) (Port.fill_taking offers.1 offers.2.1)⟩
      exact congrArg (fun t : State => Host.Outcome.next { t with classifier := { s.classifier with position := p + 1 } })
        (s.setPort_release p _)
  · rw [exec_frameTake, running_of_resetN _ running]
    refine congrArg _ ?_
    unfold State.takeFrame
    rcases none with busy | none
    · split
      · exact absurd ‹_› busy
      · rfl
    · rw [State.offering_none none]
      split
      · cases ‹_ = some _›
      · rfl

end Sys2Proof.Machine

/-! The stream table: its updates, the end of a record, and the stream commands. Proofs of O20 to O23. -/

namespace Sys2Proof.Machine

/-! ## Stream updates (R34) -/

/-- An applied update, field by field. -/
theorem StreamEntry.update_eq (e : StreamEntry) (u : UpdateRequest) : e.update u = { e with
    lastTimestamp := match u.newTimestamp with | some ts => some ts | none => e.lastTimestamp
    decimationCount := match u.newCount with | some n => n | none => e.decimationCount
    accepted := if u.outcome = .accepted then satInc e.accepted else e.accepted
    dropped := if u.outcome = .dropped then satInc e.dropped else e.dropped
    thinned := if u.outcome = .thinned then satInc e.thinned else e.thinned } := by
  obtain ⟨stream, generation, outcome, stamp, count⟩ := u
  cases outcome <;> cases stamp <;> cases count <;> rfl

section
variable {t : StreamTable} {u : UpdateRequest}

theorem StreamTable.update_of_current {e : StreamEntry} (occupied : (t.slot u.stream).entry = some e)
    (current : (t.slot u.stream).generation = u.generation) : t.update u = t.setSlot u.stream ⟨u.generation, some (e.update u)⟩ := by
  unfold StreamTable.update
  rw [occupied]
  dsimp only
  rw [if_pos current, current]

theorem StreamTable.update_of_stale (h : (t.slot u.stream).entry = none ∨ (t.slot u.stream).generation ≠ u.generation) :
    t.update u = t := by
  unfold StreamTable.update
  split
  · rename_i occupied
    rcases h with free | other
    · rw [free] at occupied; cases occupied
    · exact if_neg other
  · rfl

end

theorem State.updateStage_of_update {s : State} {f : FrameInProgress} {r : FieldRecord} {u : UpdateRequest}
    (h : s.inStage f r (.update u)) : s.updateStage = ({ s with streams := s.streams.update u } : State).recordEnds f := by
  obtain ⟨-, hframe, -, hstage⟩ := h
  simp only [State.updateStage, hframe, hstage]

/-- Settles O20: a slot with the request's generation takes the update, and any other request is discarded. -/
theorem streamUpdateNeedsTheGeneration : Obligations.StreamUpdateNeedsTheGeneration := by
  refine ⟨fun t n x => ⟨rfl, t.slot_setSlot n x, fun m hm => t.slot_setSlot_ne x hm, rfl⟩, fun s f r u h => ?_⟩
  rw [exec_streamUpdate, running_of_resetN _ h.1, State.updateStage_of_update h]
  refine ⟨fun e occupied current => ?_, fun stale => ?_⟩
  · rw [StreamTable.update_of_current occupied current, e.update_eq] <;> rfl
  · rw [StreamTable.update_of_stale stale]

/-! ## The end of a record (R50, R72) -/

theorem State.recordEnds_of_next {s : State} {f : FrameInProgress} (keep : s.classifier.abandon = false)
    (more : f.index + 1 < f.records.length) : s.recordEnds f = s.beginRecord f (f.index + 1) := by
  unfold State.recordEnds
  rw [keep, decide_eq_false (Nat.not_le.mpr more)]
  rfl

theorem State.recordEnds_of_last {s : State} {f : FrameInProgress}
    (h : s.classifier.abandon = true ∨ f.records.length ≤ f.index + 1) : s.recordEnds f = s.endFrame f := by
  unfold State.recordEnds
  rcases h with requested | last
  · rw [requested]
    rfl
  · rw [decide_eq_true last, Bool.or_true]
    rfl

/-- Settles O21: the boundary of a record by the abandon request and the records that are left. -/
theorem recordEndsAtItsBoundary : Obligations.RecordEndsAtItsBoundary := by
  refine fun s f => ⟨fun keep more => State.recordEnds_of_next keep more, fun h => ⟨(s.port f.port).release, rfl, fun keep => ?_,
    fun requested c executing => ?_⟩⟩
  · rw [State.recordEnds_of_last h]
    unfold State.endFrame
    dsimp only
    rw [if_neg (by simp [keep]), ← keep]
    rfl
  · rw [State.recordEnds_of_last h]
    unfold State.endFrame
    dsimp only
    rw [if_pos requested]
    have done : s.mu.abandonDone = { s.mu with executing := some ⟨c, .phase3Due⟩ } := by
      unfold Mu.abandonDone Mu.setProgress
      rw [executing]
      rfl
    rw [← done]
    rfl

/-! ## Optional fields (R202) -/

/-- A reader takes the bytes of an optional two-byte field. -/
theorem readOpt_count {bytes : List Byte} {value : Option Nat} (h : OptionalCount bytes value) (rest : List Byte) :
    readOpt readCount (bytes ++ rest) = some (value, rest) := by
  rcases h with ⟨rfl, rfl⟩ | ⟨hi, lo, rfl, rfl⟩
  · rfl
  · rw [← be16_toNat]
    rfl

/-! ## Codes of policies and actions (R202) -/

theorem byte_eq_of_toNat {b c : Byte} {n : Nat} (h : b.toNat = n) (code : c.toNat = n) : b = c :=
  BitVec.eq_of_toNat_eq (h.trans code.symm)

theorem StalePolicy.ofCode_eq {b : Byte} {policy : StalePolicy} (h : b.toNat = policy.code) : StalePolicy.ofCode b = some policy := by
  cases policy with
  | keep => rw [byte_eq_of_toNat (c := 0) h rfl]; rfl
  | dropOlder => rw [byte_eq_of_toNat (c := 1) h rfl]; rfl
  | dropNotNewer => rw [byte_eq_of_toNat (c := 2) h rfl]; rfl

theorem StalePolicy.ofCode_none {b : Byte} (h : 3 ≤ b.toNat) : StalePolicy.ofCode b = none := by
  have other : ∀ c : Byte, c.toNat < 3 → b ≠ c := fun c small same => absurd (same ▸ h) (Nat.not_le.mpr small)
  unfold StalePolicy.ofCode
  rw [if_neg (other 0 (by decide)), if_neg (other 1 (by decide)), if_neg (other 2 (by decide))]

theorem Action.ofCode_eq {b : Byte} {action : Action} (h : b.toNat = action.code) : Action.ofCode b = some action := by
  cases action with
  | place => rw [byte_eq_of_toNat (c := 0) h rfl]; rfl
  | drop => rw [byte_eq_of_toNat (c := 1) h rfl]; rfl

theorem Action.ofCode_none {b : Byte} (h : 2 ≤ b.toNat) : Action.ofCode b = none := by
  have other : ∀ c : Byte, c.toNat < 2 → b ≠ c := fun c small same => absurd (same ▸ h) (Nat.not_le.mpr small)
  unfold Action.ofCode
  rw [if_neg (other 0 (by decide)), if_neg (other 1 (by decide))]

theorem RawKey.key_eq {port : Byte} {p : PortId} (h : port.toNat = p.val) (station : Station) (tag : Tag) :
    RawKey.key ⟨port, station, tag⟩ = some ⟨p, station, tag⟩ := by
  unfold RawKey.key
  rw [portOf_eq h]
  rfl

theorem RawKey.key_none {k : RawKey} (h : 8 ≤ k.port.toNat) : k.key = none := by
  unfold RawKey.key
  rw [portOf_none h]
  rfl

/-! ## STREAM_WRITE (R38 to R40) -/

theorem readWhole_streamWrite {port s2 s1 s0 t1 t0 cls stale urgent : Byte} {decBytes : List Byte} {dec : Option Nat}
    (h : OptionalCount decBytes dec) :
    readWhole readStreamWrite ([port, s2, s1, s0, t1, t0, cls] ++ decBytes ++ [stale, urgent]) =
      some ⟨⟨port, be24 s2 s1 s0, be16 t1 t0⟩, cls, dec, stale, urgent != 0⟩ := by
  have read := readOpt_count h [stale, urgent]
  simp only [List.cons_append, List.nil_append] at read ⊢
  simp [readWhole, readStreamWrite, readKey, read8, readFlag, read]

theorem StreamWriteParams.check_none {a : StreamWriteParams} (h : 8 ≤ a.key.port.toNat ∨ 8 ≤ a.cls.toNat
    ∨ (∃ n, a.decimation = some n ∧ (n = 0 ∨ 255 < n)) ∨ 3 ≤ a.stale.toNat) : a.check = none := by
  unfold StreamWriteParams.check
  rcases h with port | cls | ⟨n, dec, range⟩ | stale
  · simp [RawKey.key_none port]
  · simp [classOf_none cls]
  · have bad : decimationOk a.decimation = false := by
      rw [dec]
      simp only [decimationOk, decide_eq_false_iff_not]
      omega
    simp [bad]
  · simp [StalePolicy.ofCode_none stale]

theorem StreamWriteParams.check_eq {a : StreamWriteParams} {key : Key} {cls : ClassId} {stale : StalePolicy}
    (hkey : a.key.key = some key) (hcls : a.cls.toNat = cls.val) (hdec : ∀ n, a.decimation = some n → 1 ≤ n ∧ n ≤ 255)
    (hstale : a.stale.toNat = stale.code) : a.check = some ⟨key, cls, a.decimation, stale, a.urgent⟩ := by
  have good : decimationOk a.decimation = true := by
    unfold decimationOk
    split
    · rfl
    · rename_i n dec
      exact decide_eq_true (hdec n dec)
  simp [StreamWriteParams.check, hkey, classOf_eq hcls, good, StalePolicy.ofCode_eq hstale]

section
variable {s : State} {a : StreamWriteParams} {w : StreamConfig} (c : Command) (checked : a.check = some w)

theorem State.streamWrite_of_badRange (h : a.check = none) : s.streamWrite c a = s.finish c .badRange [] := by
  unfold State.streamWrite
  rw [h]

include checked

theorem State.streamWrite_of_hasKey {n : StreamNo} {e : StreamEntry} (h : s.streams.HasKey w.key n e) :
    s.streamWrite c a = ({ s with streams := s.streams.setSlot n ⟨(s.streams.slot n).generation + 1, some (w.replace e)⟩ } : State).finish
      c .ok (streamWriteResult true n ((s.streams.slot n).generation + 1)) := by
  unfold State.streamWrite
  rw [checked]
  dsimp only
  rw [StreamTable.find_eq h]
  dsimp only
  rw [h.2.1]
  rfl

theorem State.streamWrite_of_firstFree {n : StreamNo} (lacks : s.streams.LacksKey w.key) (free : s.streams.FirstFree w.key n) :
    s.streamWrite c a = ({ s with streams := s.streams.setSlot n ⟨(s.streams.slot n).generation + 1, some w.insert⟩ } : State).finish
      c .ok (streamWriteResult false n ((s.streams.slot n).generation + 1)) := by
  unfold State.streamWrite
  rw [checked]
  dsimp only
  rw [StreamTable.find_none lacks, StreamTable.freeSlot_eq free]
  rfl

theorem State.streamWrite_of_bucketFull (lacks : s.streams.LacksKey w.key) (full : s.streams.BucketFull w.key) :
    s.streamWrite c a = s.finish c .bucketFull [] := by
  unfold State.streamWrite
  rw [checked]
  dsimp only
  rw [StreamTable.find_none lacks, StreamTable.freeSlot_none full]

end

/-- Settles O22: the range checks, then the key's place in the table. -/
theorem streamWriteReplacesOrInserts : Obligations.StreamWriteReplacesOrInserts := by
  intro s c rest port s2 s1 s0 t1 t0 cls stale urgent decBytes dec hb he hdec params
  rw [exec_streamWrite_begins hb he (by rw [params]; exact readWhole_streamWrite hdec)]
  refine ⟨fun bad => ?_, fun p k policy hport hcls range hstale key hkey => ?_⟩
  · rw [State.streamWrite_of_badRange c (StreamWriteParams.check_none bad), State.dequeued_finish]
  · have coded : stale.toNat = policy.code := by
      rcases hstale with ⟨rfl, rfl⟩ | ⟨rfl, rfl⟩ | ⟨rfl, rfl⟩ <;> rfl
    have checked : StreamWriteParams.check ⟨⟨port, be24 s2 s1 s0, be16 t1 t0⟩, cls, dec, stale, urgent != 0⟩ =
        some ⟨key, k, dec, policy, urgent != 0⟩ := StreamWriteParams.check_eq (by rw [hkey]; exact RawKey.key_eq hport _ _) hcls range coded
    refine ⟨fun n e has => ?_, fun lacks n free => ?_, fun lacks full => ?_⟩
    · rw [State.streamWrite_of_hasKey (s := s.dequeued rest) c checked has]
      rfl
    · rw [State.streamWrite_of_firstFree (s := s.dequeued rest) c checked lacks free]
      rfl
    · rw [State.streamWrite_of_bucketFull (s := s.dequeued rest) c checked lacks full]
      rfl

/-! ## STREAM_DELETE and STREAM_READ (R42 to R44) -/

theorem exec_streamRead_begins {s : State} {c : Command} {rest : List Command} {a : StreamReadParams} (hb : s.begins 0x22 c rest)
    (allowed : sessionCheck (readNeed a.clear) c.epoch s.mu.epoch = none) (parsed : parseStreamRead c.params = some a) :
    exec .streamRead s = .next ((s.dequeued rest).streamRead c a) :=
  running_runCommand hb parsed allowed

/-- A read that does not clear needs no session; one that clears does (R175). -/
theorem sessionCheck_readNeed {s : State} {c : Command} {clear : Byte}
    (h : s.mu.epoch = some c.epoch ∨ (clear = 0 ∧ c.epoch = 0)) : sessionCheck (readNeed (clear != 0)) c.epoch s.mu.epoch = none := by
  rcases h with matching | ⟨rfl, zero⟩
  · exact sessionCheck_of_matching matching _
  · exact sessionCheck_readOnly (.inl zero)

section
variable {s : State} (c : Command)

theorem State.streamDelete_of_badRange {k : RawKey} (h : k.key = none) : s.streamDelete c k = s.finish c .badRange [] := by
  unfold State.streamDelete
  rw [h]

theorem State.streamDelete_of_hasKey {k : RawKey} {key : Key} {n : StreamNo} {e : StreamEntry} (named : k.key = some key)
    (h : s.streams.HasKey key n e) : s.streamDelete c k =
      ({ s with streams := s.streams.setSlot n ⟨(s.streams.slot n).generation + 1, none⟩ } : State).finish c .ok
        (encCount n ++ enc16 ((s.streams.slot n).generation + 1)) := by
  unfold State.streamDelete
  rw [named]
  dsimp only
  rw [StreamTable.find_eq h]
  rfl

theorem State.streamDelete_of_lacksKey {k : RawKey} {key : Key} (named : k.key = some key) (h : s.streams.LacksKey key) :
    s.streamDelete c k = s.finish c .notFound [] := by
  unfold State.streamDelete
  rw [named]
  dsimp only
  rw [StreamTable.find_none h]

theorem StreamTable.select_of_lacksKey {t : StreamTable} {k : RawKey} {key : Key} (named : k.key = some key)
    (h : t.LacksKey key) : t.select (.key k) = .notFound := by
  unfold StreamTable.select
  dsimp only
  rw [named]
  dsimp only
  rw [StreamTable.find_none h]

theorem StreamTable.select_of_hasKey {t : StreamTable} {k : RawKey} {key : Key} {n : StreamNo} {e : StreamEntry}
    (named : k.key = some key) (h : t.HasKey key n e) : t.select (.key k) = .slot n := by
  unfold StreamTable.select
  dsimp only
  rw [named]
  dsimp only
  rw [StreamTable.find_eq h]

theorem StreamTable.select_of_badKey {t : StreamTable} {k : RawKey} (h : k.key = none) : t.select (.key k) = .badRange := by
  unfold StreamTable.select
  dsimp only
  rw [h]

/-- A stream number selects its slot while that is occupied (R43). -/
theorem StreamTable.select_number {t : StreamTable} {m : BitVec 16} {n : StreamNo} (h : m.toNat = n.val) :
    t.select (.number m) = if (t.slot n).entry.isSome then .slot n else .notFound := by
  have same : (⟨m.toNat, h ▸ n.isLt⟩ : StreamNo) = n := Fin.ext h
  unfold StreamTable.select
  dsimp only
  rw [dif_pos (h ▸ n.isLt), same]

theorem StreamTable.select_of_badNumber {t : StreamTable} {m : BitVec 16} (h : 2048 ≤ m.toNat) : t.select (.number m) = .badRange := by
  unfold StreamTable.select
  exact dif_neg (Nat.not_lt.mpr h)

variable {a : StreamReadParams}

theorem State.streamRead_of_badRange (h : s.streams.select a.selector = .badRange) : s.streamRead c a = s.finish c .badRange [] := by
  unfold State.streamRead
  rw [h]

theorem State.streamRead_of_notFound (h : s.streams.select a.selector = .notFound) : s.streamRead c a = s.finish c .notFound [] := by
  unfold State.streamRead
  rw [h]

theorem State.streamRead_of_slot {n : StreamNo} {e : StreamEntry} (h : s.streams.select a.selector = .slot n)
    (occupied : (s.streams.slot n).entry = some e) : s.streamRead c a =
      (if a.clear then { s with streams := s.streams.setSlot n ⟨(s.streams.slot n).generation, some e.cleared⟩ } else s : State).finish c .ok
        (streamReadResult n (s.streams.slot n).generation e) := by
  unfold State.streamRead
  rw [h]
  dsimp only
  rw [occupied]

end

/-- The thirteen result fields of STREAM_READ, with the two optional ones and the policy by their cases. -/
theorem streamReadResult_eq (n : StreamNo) (g : BitVec 16) (e : StreamEntry) : streamReadResult n g e =
    encCount n ++ enc16 g ++ (enc8 e.key.port ++ enc24 e.key.station ++ enc16 e.key.tag) ++ enc8 e.cls
      ++ (match e.decimation with | none => [0x00] | some d => [0x01] ++ encCount d)
      ++ (match e.stale with | .keep => [0x00] | .dropOlder => [0x01] | .dropNotNewer => [0x02])
      ++ encFlag e.urgent ++ encFlag e.learned
      ++ (match e.lastTimestamp with | none => [0x00] | some ts => [0x01] ++ enc32 ts)
      ++ encCount e.decimationCount ++ enc32 e.accepted ++ enc32 e.dropped ++ enc32 e.thinned := by
  obtain ⟨key, cls, decimation, stale, urgent, learned, stamp, count, accepted, dropped, thinned⟩ := e
  cases decimation <;> cases stale <;> cases stamp <;> rfl

/-- What a read of an occupied slot does, by its clear byte. -/
theorem State.streamRead_begins_of_slot {s : State} {c : Command} {rest : List Command} {sel : StreamSelector} {clear : Byte}
    {n : StreamNo} {e : StreamEntry} (selected : s.streams.select sel = .slot n) (occupied : (s.streams.slot n).entry = some e) :
    (s.dequeued rest).streamRead c ⟨sel, clear != 0⟩ =
      (if clear = 0 then s else { s with
          streams := s.streams.setSlot n ⟨(s.streams.slot n).generation, some { e with accepted := 0, dropped := 0, thinned := 0 }⟩ }).answered
        c rest .ok (streamReadResult n (s.streams.slot n).generation e) := by
  rw [State.streamRead_of_slot (s := s.dequeued rest) (a := ⟨sel, clear != 0⟩) c selected occupied]
  by_cases h : clear = 0
  · rw [if_pos h, h]
    rfl
  · rw [if_neg h, flag_of_ne h]
    rfl

/-- A selector outside its table is read with 4 or 8 parameter bytes, the last the clear flag (R203). -/
theorem parseStreamRead_of_other {sel : Byte} {fields : List Byte} (clear : Byte) (key : sel ≠ 0x00) (number : sel ≠ 0x01)
    (length : fields.length = 2 ∨ fields.length = 6) : parseStreamRead ([sel] ++ fields ++ [clear]) = some ⟨.other, clear != 0⟩ := by
  have long : ([sel] ++ fields ++ [clear]).length = 4 ∨ ([sel] ++ fields ++ [clear]).length = 8 := by simpa using length
  have last : ([sel] ++ fields ++ [clear]).getLastD 0 = clear := List.getLastD_concat ..
  simp only [List.cons_append, List.nil_append] at long last ⊢
  simp only [parseStreamRead]
  rw [if_neg key, if_neg number, if_pos long, last]

/-- Settles O23: the tables of STREAM_DELETE and of STREAM_READ, by key and by number. -/
theorem streamDeleteAndReadByTheirTables : Obligations.StreamDeleteAndReadByTheirTables := by
  refine ⟨fun s c rest port s2 s1 s0 t1 t0 hb he params => ?_, fun s c rest clear hb allowed result fields => ?_⟩
  · rw [exec_streamDelete_begins hb he (by rw [params]; rfl)]
    refine ⟨fun bad => ?_, fun p key hport hkey => ?_⟩
    · rw [State.streamDelete_of_badRange c (RawKey.key_none bad), State.dequeued_finish]
    · have named : RawKey.key ⟨port, be24 s2 s1 s0, be16 t1 t0⟩ = some key := hkey ▸ RawKey.key_eq hport _ _
      refine ⟨fun n e has => ?_, fun lacks => ?_⟩
      · rw [State.streamDelete_of_hasKey (s := s.dequeued rest) c named has]
        rfl
      · rw [State.streamDelete_of_lacksKey (s := s.dequeued rest) c named lacks, State.dequeued_finish]
  · have results : result = streamReadResult := by
      funext n g e
      rw [fields, streamReadResult_eq] <;> rfl
    subst results
    have session := sessionCheck_readNeed allowed
    refine ⟨fun sel selected key number length params => ?_, fun port s2 s1 s0 t1 t0 params => ?_, fun hi lo params => ?_⟩
    · rw [exec_streamRead_begins (a := ⟨.other, clear != 0⟩) hb session
          (by rw [params]; exact parseStreamRead_of_other clear key number length), State.streamRead_of_badRange c rfl, State.dequeued_finish]
    · rw [exec_streamRead_begins (a := ⟨.key ⟨port, be24 s2 s1 s0, be16 t1 t0⟩, clear != 0⟩) hb session (by rw [params]; rfl)]
      refine ⟨fun bad => ?_, fun p key hport hkey => ?_⟩
      · rw [State.streamRead_of_badRange c (StreamTable.select_of_badKey (RawKey.key_none bad)), State.dequeued_finish]
      · have named : RawKey.key ⟨port, be24 s2 s1 s0, be16 t1 t0⟩ = some key := hkey ▸ RawKey.key_eq hport _ _
        refine ⟨fun lacks => ?_, fun n e has => ?_⟩
        · rw [State.streamRead_of_notFound c (StreamTable.select_of_lacksKey named lacks), State.dequeued_finish]
        · rw [State.streamRead_begins_of_slot (StreamTable.select_of_hasKey named has) has.2.1]
    · rw [exec_streamRead_begins (a := ⟨.number (be16 hi lo), clear != 0⟩) hb session (by rw [params]; rfl)]
      refine ⟨fun bad => ?_, fun n number => ?_⟩
      · rw [State.streamRead_of_badRange c (StreamTable.select_of_badNumber (by rw [be16_toNat]; exact bad)), State.dequeued_finish]
      · have select := StreamTable.select_number (t := s.streams) ((be16_toNat hi lo).trans number)
        refine ⟨fun free => ?_, fun e occupied => ?_⟩
        · rw [free] at select
          rw [State.streamRead_of_notFound (s := s.dequeued rest) (a := ⟨.number (be16 hi lo), clear != 0⟩) c select, State.dequeued_finish]
        · rw [occupied] at select
          rw [State.streamRead_begins_of_slot select occupied]

end Sys2Proof.Machine

/-! The rule, class and spread commands. Proofs of O24 to O26. -/

namespace Sys2Proof.Machine

/-! ## RULE_STAGE and RULE_APPLY (R64, R65) -/

theorem RuleStageParams.rule_of_invalid {a : RuleStageParams} (h : a.valid = false) : a.rule = some {} := by
  unfold RuleStageParams.rule
  rw [h]
  rfl

theorem RuleStageParams.rule_eq {a : RuleStageParams} {action : Action} {cls : ClassId} {stale : StalePolicy}
    (valid : a.valid = true) (haction : a.action.toNat = action.code) (hcls : a.cls.toNat = cls.val)
    (hstale : a.stale.toNat = stale.code) : a.rule = some ⟨true, a.portSet, a.stationValue, a.stationMask, a.tagValue, a.tagMask,
      action, cls, a.learn, stale⟩ := by
  simp [RuleStageParams.rule, valid, Action.ofCode_eq haction, classOf_eq hcls, StalePolicy.ofCode_eq hstale]

theorem RuleStageParams.rule_none {a : RuleStageParams} (valid : a.valid = true)
    (h : 2 ≤ a.action.toNat ∨ 8 ≤ a.cls.toNat ∨ 3 ≤ a.stale.toNat) : a.rule = none := by
  unfold RuleStageParams.rule
  rw [if_pos valid]
  rcases h with action | cls | stale
  · simp [Action.ofCode_none action]
  · simp [classOf_none cls]
  · simp [StalePolicy.ofCode_none stale]

section
variable {s : State} (c : Command) {a : RuleStageParams}

theorem State.ruleStage_of_badRange (h : indexOf a.index = none ∨ a.rule = none) : s.ruleStage c a = s.finish c .badRange [] := by
  unfold State.ruleStage
  split
  · rename_i index rule
    rcases h with none | none
    · rw [none] at index; cases index
    · rw [none] at rule; cases rule
  · rfl

theorem State.ruleStage_of_rule {i : RuleIndex} {rule : Rule} (index : indexOf a.index = some i) (staged : a.rule = some rule) :
    s.ruleStage c a =
      ({ s with rules := { s.rules with staged := s.rules.staged.set i.val rule i.isLt } } : State).finish c .ok (enc8 i) := by
  unfold State.ruleStage
  rw [index, staged]

end

/-- Settles O24: the index, then the empty form or the rule in range; an apply copies the staged list. -/
theorem ruleStageAndApplyByTheirRules : Obligations.RuleStageAndApplyByTheirRules := by
  refine ⟨fun s c rest index valid ports v2 v1 v0 m2 m1 m0 t1 t0 n1 n0 action cls learn stale hb he params => ?_,
    fun s c rest hb he params => ?_⟩
  · have parsed : readWhole readRuleStage c.params = some ⟨index, valid != 0, ports, be24 v2 v1 v0, be24 m2 m1 m0, be16 t1 t0,
        be16 n1 n0, action, cls, learn != 0, stale⟩ := by rw [params]; rfl
    rw [exec_ruleStage_begins hb he parsed]
    refine ⟨fun bad => ?_, fun i named => ⟨fun empty => ?_, fun full a k policy haction hcls hstale => ?_⟩⟩
    · rw [State.ruleStage_of_badRange c, State.dequeued_finish]
      rcases bad with index | ⟨valid, range⟩
      · exact .inl (indexOf_none index)
      · exact .inr (RuleStageParams.rule_none (flag_of_ne valid) range)
    · rw [State.ruleStage_of_rule (s := s.dequeued rest) c (indexOf_eq named)
        (RuleStageParams.rule_of_invalid (by rw [empty, flag_of_zero])), enc8_of_toNat named]
      rfl
    · rw [State.ruleStage_of_rule (s := s.dequeued rest) c (indexOf_eq named)
        (RuleStageParams.rule_eq (flag_of_ne full) haction hcls hstale), enc8_of_toNat named]
      rfl
  · rw [exec_ruleApply_begins (a := ()) hb he (by rw [params]; rfl)]
    rfl

/-! ## RULE_READ and MAP_READ (R66, R70) -/

section
variable {s : State} {c : Command} {rest : List Command} (allowed : c.epoch = 0 ∨ s.mu.epoch = some c.epoch)
include allowed

theorem exec_ruleRead_begins {a : RuleReadParams} (hb : s.begins 0x32 c rest) (parsed : readWhole readRuleRead c.params = some a) :
    exec .ruleRead s = .next ((s.dequeued rest).ruleRead c a) :=
  running_runCommand hb parsed (sessionCheck_readOnly allowed)

theorem exec_mapRead_begins {a : Unit} (hb : s.begins 0x35 c rest) (parsed : readWhole readNothing c.params = some a) :
    exec .mapRead s = .next ((s.dequeued rest).mapRead c a) :=
  running_runCommand hb parsed (sessionCheck_readOnly allowed)

end

theorem RuleSet.list_none {r : RuleSet} {choice : Byte} (h : 2 ≤ choice.toNat) : r.list choice = none := by
  have other : ∀ c : Byte, c.toNat < 2 → choice ≠ c := fun c small same => absurd (same ▸ h) (Nat.not_le.mpr small)
  unfold RuleSet.list
  rw [if_neg (other 0 (by decide)), if_neg (other 1 (by decide))]

section
variable {s : State} (c : Command) {a : RuleReadParams}

theorem State.ruleRead_of_badRange (h : indexOf a.index = none ∨ s.rules.list a.list = none) :
    s.ruleRead c a = s.finish c .badRange [] := by
  unfold State.ruleRead
  split
  · rename_i index rules
    rcases h with none | none
    · rw [none] at index; cases index
    · rw [none] at rules; cases rules
  · rfl

theorem State.ruleRead_of_rule {i : RuleIndex} {rules : Vector Rule 64} (index : indexOf a.index = some i)
    (list : s.rules.list a.list = some rules) :
    s.ruleRead c a = s.finish c .ok ([a.list] ++ enc8 i ++ enc16 s.rules.version ++ rules[i].encode) := by
  unfold State.ruleRead
  rw [index, list]

end

/-- The entries of a table in order, each by its index. -/
theorem vector_flatMap {α β : Type} {n : Nat} (v : Vector α n) (f : α → List β) :
    v.toList.flatMap f = (List.finRange n).flatMap fun i => f v[i] := by
  have entries : v.toList = (List.finRange n).map fun i => v[i] := by
    rw [← List.ofFn_eq_map]
    exact List.ext_getElem (by simp) fun i _ _ => by simp
  rw [entries, List.flatMap_map]

/-- A class record as R68 reports it, by its mode. -/
theorem ClassRecord.encode_eq (k : ClassId) (record : ClassRecord) : record.encode k = enc8 k ++ (match record with
    | .unset => [0x00, 0x00, 0x00, 0x00]
    | .fixed l => [0x01, 0x01] ++ enc8 l ++ [0x00, 0x00]
    | .spread base size => [0x02, 0x00, 0x01] ++ enc8 base ++ [0x01] ++ encCount size) := by
  cases record <;> rfl

/-- A spread entry as a byte, FFh for UNSET (R202). -/
theorem encSpread_eq (x : Option LaneId) : encSpread x = match x with | none => [0xFF] | some l => enc8 l := by
  cases x <;> rfl

/-- Settles O25: the rule of the chosen list, and the whole class and spread configuration. -/
theorem ruleAndMapReadsReport : Obligations.RuleAndMapReadsReport := by
  refine fun s c rest allowed => ⟨fun list index hb params => ?_, fun hb params => ?_⟩
  · rw [exec_ruleRead_begins (a := ⟨list, index⟩) allowed hb (by rw [params]; rfl)]
    refine ⟨fun bad => ?_, fun i rule named chosen => ?_⟩
    · rw [State.ruleRead_of_badRange c, State.dequeued_finish]
      exact bad.symm.imp indexOf_none RuleSet.list_none
    · have read : ∃ rules, s.rules.list list = some rules ∧ rules[i] = rule := by
        rcases chosen with ⟨rfl, same⟩ | ⟨rfl, same⟩
        · exact ⟨_, rfl, same.symm⟩
        · exact ⟨_, rfl, same.symm⟩
      obtain ⟨rules, hlist, same⟩ := read
      rw [State.ruleRead_of_rule (s := s.dequeued rest) (a := ⟨list, index⟩) c (indexOf_eq named) hlist, same, enc8_of_toNat named, State.dequeued_finish]
      refine congrArg (fun bytes => Host.Outcome.next (s.answered c rest .ok bytes)) ?_
      simp only [Rule.encode, List.append_assoc, List.cons_append, List.nil_append]
      rfl
  · rw [exec_mapRead_begins (a := ()) allowed hb (by rw [params]; rfl)]
    unfold State.mapRead ClassMap.encode
    rw [State.dequeued_finish, vector_flatMap]
    simp only [ClassRecord.encode_eq, encSpread_eq]
    rfl

/-! ## CLASS_WRITE (R68) -/

/-- A reader takes the bytes of an optional one-byte field. -/
theorem readOpt_byte (value : Option Byte) (rest : List Byte) :
    readOpt read8 (encOpt (fun b => [b]) value ++ rest) = some (value, rest) := by
  cases value <;> rfl

theorem readWhole_classWrite {cls mode : Byte} {lane base : Option Byte} {size : Option Nat} {sizeBytes : List Byte}
    (h : OptionalCount sizeBytes size) :
    readWhole readClassWrite ([cls, mode] ++ encOpt (fun b => [b]) lane ++ encOpt (fun b => [b]) base ++ sizeBytes) =
      some ⟨cls, mode, lane, base, size⟩ := by
  have last := readOpt_count h []
  rw [List.append_nil] at last
  rw [List.append_assoc, List.append_assoc, List.cons_append, List.cons_append, List.nil_append]
  simp [readWhole, readClassWrite, read8, readOpt_byte, last]

section
variable {a : ClassWriteParams}

theorem ClassWriteParams.record_of_unset (h : a.mode = 0) : a.record = some .unset := if_pos h

theorem ClassWriteParams.record_of_fixed {b : Byte} {l : LaneId} (mode : a.mode = 1) (lane : a.lane = some b) (named : b.toNat = l.val) :
    a.record = some (.fixed l) := by
  unfold ClassWriteParams.record
  rw [mode]
  simp [lane, laneOf_eq named]

theorem ClassWriteParams.record_of_spread {b : Byte} {n : Nat} (mode : a.mode = 2) (base : a.base = some b) (size : a.size = some n)
    (listed : n ∈ [1, 2, 4, 8, 16, 32, 64]) (fits : b.toNat + n ≤ 64) : a.record = some (.spread b.toNat n) := by
  have positive : 1 ≤ n := by
    simp only [List.mem_cons, List.not_mem_nil, or_false] at listed
    omega
  have index : indexOf b = some ⟨b.toNat, by omega⟩ := indexOf_eq rfl
  have good : n ∈ spreadSizes ∧ b.toNat + n ≤ 64 := ⟨listed, fits⟩
  unfold ClassWriteParams.record
  rw [mode]
  simp [base, index, size, good]

theorem ClassWriteParams.record_none (h : 3 ≤ a.mode.toNat ∨ (a.mode = 1 ∧ ∀ b, a.lane = some b → 16 ≤ b.toNat)
    ∨ (a.mode = 2 ∧ ∀ b n, a.base = some b → a.size = some n →
      64 ≤ b.toNat ∨ n ∉ [1, 2, 4, 8, 16, 32, 64] ∨ 64 < b.toNat + n)) : a.record = none := by
  unfold ClassWriteParams.record
  rcases h with mode | ⟨mode, lane⟩ | ⟨mode, spread⟩
  · have other : ∀ c : Byte, c.toNat < 3 → a.mode ≠ c := fun c small same => absurd (same ▸ mode) (Nat.not_le.mpr small)
    rw [if_neg (other 0 (by decide)), if_neg (other 1 (by decide)), if_neg (other 2 (by decide))]
  · rw [mode]
    cases named : a.lane with
    | none => rfl
    | some b => simp [laneOf_none (lane b named)]
  · rw [mode]
    cases hbase : a.base with
    | none => rfl
    | some b =>
      by_cases inside : b.toNat < 64
      · have index : indexOf b = some ⟨b.toNat, inside⟩ := indexOf_eq rfl
        cases hsize : a.size with
        | none => simp
        | some n =>
          have bad : ¬(n ∈ spreadSizes ∧ b.toNat + n ≤ 64) := by
            rintro ⟨listed, fits⟩
            rcases spread b n hbase hsize with outside | unlisted | long
            · omega
            · exact unlisted listed
            · omega
          simp [index, bad]
      · simp [indexOf_none (Nat.not_lt.mp inside)]

end

section
variable {s : State} (c : Command) {a : ClassWriteParams}

theorem State.classWrite_of_badRange (h : classOf a.cls = none ∨ a.record = none) : s.classWrite c a = s.finish c .badRange [] := by
  unfold State.classWrite
  split
  · rename_i cls record
    rcases h with none | none
    · rw [none] at cls; cases cls
    · rw [none] at record; cases record
  · rfl

theorem State.classWrite_of_record {k : ClassId} {record : ClassRecord} (cls : classOf a.cls = some k) (written : a.record = some record) :
    s.classWrite c a = ({ s with map := { s.map with classes := s.map.classes.set k.val record k.isLt } } : State).finish c .ok
      (record.encode k) := by
  unfold State.classWrite
  rw [cls, written]

end

/-! ## SPREAD_WRITE (R69) -/

theorem spreadEntryOf_lane {b : Byte} {l : LaneId} (h : b.toNat = l.val) : spreadEntryOf b = some (some l) := by
  have lane : b ≠ 0xFF := by
    rintro rfl
    have inside := l.isLt
    rw [← h] at inside
    exact absurd inside (by decide)
  unfold spreadEntryOf
  rw [if_neg lane, laneOf_eq h]
  rfl

theorem spreadEntryOf_none {b : Byte} (set : b ≠ 0xFF) (h : 16 ≤ b.toNat) : spreadEntryOf b = none := by
  unfold spreadEntryOf
  rw [if_neg set, laneOf_none h]
  rfl

/-- The entries of a list are read one by one. -/
theorem spreadEntriesOf_iff (bs : List Byte) (entries : List (Option LaneId)) :
    spreadEntriesOf bs = some entries ↔ bs.map spreadEntryOf = entries.map some := by
  unfold spreadEntriesOf
  induction bs generalizing entries with
  | nil => cases entries with
    | nil => exact ⟨fun _ => rfl, fun _ => rfl⟩
    | cons x xs => exact iff_of_false (by simp) (by simp)
  | cons b bs ih =>
    rw [List.mapM_cons]
    cases entry : spreadEntryOf b with
    | none => cases entries <;> simp [entry]
    | some e =>
      cases entries with
      | nil => simp [Option.bind_eq_some_iff]
      | cons x xs => simp [entry, ← ih, Option.bind_eq_some_iff, and_comm]

/-- A run of entries in the table: those it covers take its elements, the others stay. -/
theorem writeRun_getElem (table : Vector (Option LaneId) 64) (first : Nat) (entries : List (Option LaneId)) (i : SpreadIndex) :
    (writeRun table first entries)[i] =
      if h : first ≤ i.val ∧ i.val - first < entries.length then entries[i.val - first]'h.2 else table[i] :=
  Vector.getElem_ofFn i.isLt

/-- A reader takes a count byte and that many fields. -/
theorem readList_entries {count : Byte} {entries : List Byte} (h : entries.length = count.toNat) (rest : List Byte) :
    readList (count :: (entries ++ rest)) = some (entries, rest) := by
  have enough : ¬(entries ++ rest).length < count.toNat := by
    rw [List.length_append]
    omega
  simp only [readList]
  rw [if_neg enough, ← h, List.take_left, List.drop_left]

/-- The bytes of an optional salt and the salt. -/
theorem readOpt_salt {bytes : List Byte} {salt : Option Station}
    (h : bytes = [0x00] ∧ salt = none ∨ ∃ a b d, bytes = [0x01, a, b, d] ∧ salt = some (be24 a b d)) :
    readOpt read24 bytes = some (salt, []) := by
  rcases h with ⟨rfl, rfl⟩ | ⟨a, b, d, rfl, rfl⟩ <;> rfl

section
variable {s : State} (c : Command) {a : SpreadWriteParams}

theorem State.spreadWrite_of_badRange (h : 64 ≤ a.first.toNat ∨ a.entries = [] ∨ 16 < a.entries.length
    ∨ (∃ b ∈ a.entries, b ≠ 0xFF ∧ 16 ≤ b.toNat) ∨ 64 < a.first.toNat + a.entries.length) :
    s.spreadWrite c a = s.finish c .badRange [] := by
  unfold State.spreadWrite
  split
  · rename_i first entries index read
    have elements := (spreadEntriesOf_iff _ _).mp read
    have length : a.entries.length = entries.length := by simpa using congrArg List.length elements
    have named : a.first.toNat = first.val := by
      unfold indexOf at index
      split at index
      · cases index; rfl
      · cases index
    refine if_neg ?_
    rw [← length, ← named]
    rintro ⟨some_, most, fits⟩
    rcases h with outside | empty | long | ⟨b, mem, set, lane⟩ | beyond
    · exact absurd first.isLt (by omega)
    · rw [empty] at some_
      exact absurd some_ (by decide)
    · omega
    · have none_ : (none : Option (Option LaneId)) ∈ entries.map some := by
        rw [← elements, ← spreadEntryOf_none set lane]
        exact List.mem_map_of_mem mem
      simp at none_
    · omega
  · rfl

theorem State.spreadWrite_of_entries {first : SpreadIndex} {entries : List (Option LaneId)} (index : indexOf a.first = some first)
    (read : spreadEntriesOf a.entries = some entries) (counted : 1 ≤ entries.length ∧ entries.length ≤ 16 ∧ first.val + entries.length ≤ 64) :
    s.spreadWrite c a = ({ s with map := { s.map with
        spread := writeRun s.map.spread first entries, salt := a.salt.getD s.map.salt } } : State).finish c .ok
      (enc8 first ++ encCount entries.length ++ enc24 (a.salt.getD s.map.salt)) := by
  unfold State.spreadWrite
  rw [index, read]
  exact if_pos counted

end

/-- Settles O26: the checks of a class record by its mode, and the run of entries that a spread write puts in the table. -/
theorem classAndSpreadWritesByTheirChecks : Obligations.ClassAndSpreadWritesByTheirChecks := by
  refine ⟨fun s c rest cls mode lane base size sizeBytes hb he hsize params => ?_,
    fun s c rest first count entries saltBytes salt hb he counted hsalt params => ?_⟩
  · rw [exec_classWrite_begins hb he (by rw [params]; exact readWhole_classWrite hsize)]
    refine ⟨fun bad => ?_, fun k record hcls written => ?_⟩
    · rw [State.classWrite_of_badRange c, State.dequeued_finish]
      exact bad.imp classOf_none fun h => ClassWriteParams.record_none h
    · have read : ClassWriteParams.record ⟨cls, mode, lane, base, size⟩ = some record := by
        rcases written with ⟨unset, rfl⟩ | ⟨b, l, fixed, hlane, rfl, named⟩ | ⟨b, n, spread, hbase, hn, listed, fits, rfl⟩
        · exact ClassWriteParams.record_of_unset unset
        · exact ClassWriteParams.record_of_fixed fixed hlane named
        · exact ClassWriteParams.record_of_spread spread hbase hn listed fits
      rw [State.classWrite_of_record (s := s.dequeued rest) c (classOf_eq hcls) read, ClassRecord.encode_eq]
      rfl
  · have parsed : readWhole readSpreadWrite c.params = some ⟨first, entries, salt⟩ := by
      rw [params, List.append_assoc, List.cons_append, List.cons_append, List.nil_append]
      simp [readWhole, readSpreadWrite, read8, readList_entries counted, readOpt_salt hsalt]
    rw [exec_spreadWrite_begins hb he parsed]
    refine ⟨fun bad => ?_, fun some_ most lanes fits => ?_⟩
    · rw [State.spreadWrite_of_badRange c (by exact bad), State.dequeued_finish]
    · have named : first.toNat = (⟨first.toNat, by omega⟩ : SpreadIndex).val := rfl
      have read : spreadEntriesOf entries = some (entries.map fun b => (spreadEntryOf b).getD none) := by
        refine (spreadEntriesOf_iff _ _).mpr ?_
        rw [List.map_map]
        refine List.map_congr_left fun b mem => ?_
        rcases lanes b mem with rfl | lane
        · rfl
        · rw [Function.comp_apply, spreadEntryOf_lane (l := ⟨b.toNat, lane⟩) rfl]
          rfl
      refine ⟨writeRun s.map.spread first.toNat (entries.map fun b => (spreadEntryOf b).getD none), ?_, fun i => ⟨fun b after element => ?_, fun outside => ?_⟩⟩
      · rw [State.spreadWrite_of_entries (s := s.dequeued rest) c (indexOf_eq named) read
          (by rw [List.length_map]; exact ⟨some_, most, fits⟩), List.length_map, enc8_of_toNat rfl]
        rfl
      · obtain ⟨inside, rfl⟩ := List.getElem?_eq_some_iff.mp element
        rw [writeRun_getElem, dif_pos ⟨after, by rw [List.length_map]; exact inside⟩, List.getElem_map]
        refine ⟨fun unset => ?_, fun l lane => ?_⟩
        · rw [unset]
          rfl
        · rw [spreadEntryOf_lane lane]
          rfl
      · rw [writeRun_getElem, dif_neg]
        rw [List.length_map]
        omega

end Sys2Proof.Machine

/-! Cells, closing and placement. Proofs of O27 to O31. -/

namespace Sys2Proof.Machine

/-! ## The pool (R76 to R82) -/

section
variable {s : State} {n : Nat}

theorem State.allocate_zero (s : State) : s.allocate 0 = some s := rfl

theorem State.allocate_of_refused (h : s.pool.free < n) : s.allocate n = none := by
  unfold State.allocate
  rw [if_neg (by omega), if_pos h]

theorem State.allocate_of_kept (positive : 0 < n) (h : n ≤ s.pool.free)
    (kept : s.pool.held = true ∨ s.pool.holdThreshold ≤ s.pool.free - n) :
    s.allocate n = some { s with pool := { s.pool with free := s.pool.free - n } } := by
  unfold State.allocate
  rw [if_neg (by omega), if_neg (by omega)]
  refine if_neg ?_
  rintro ⟨released, below⟩
  rcases kept with held | above
  · rw [released] at held
    cases held
  · omega

theorem State.allocate_of_asserted (positive : 0 < n) (h : n ≤ s.pool.free) (released : s.pool.held = false)
    (below : s.pool.free - n < s.pool.holdThreshold) :
    s.allocate n = some (({ s with pool := { s.pool with
      free := s.pool.free - n, held := true, holdEvents := satInc s.pool.holdEvents } } : State).raise srcPoolLow) := by
  unfold State.allocate
  rw [if_neg (by omega), if_neg (by omega)]
  exact if_pos ⟨released, below⟩

theorem State.freeCells_zero (s : State) : s.freeCells 0 = s := rfl

theorem State.freeCells_of_pos (positive : 0 < n) : s.freeCells n = { s with pool := { s.pool with
    free := s.pool.free + n
    held := s.pool.held && decide (s.pool.free + n ≤ s.pool.releaseThreshold) } } :=
  if_neg (by omega)

end

section
variable {s : State} {a : PoolSetParams}

theorem State.setThresholds_of_asserted (released : s.pool.held = false) (below : s.pool.free < a.hold) :
    s.setThresholds a = ({ s with pool := { s.pool with
      holdThreshold := a.hold, releaseThreshold := a.release, held := true
      holdEvents := satInc s.pool.holdEvents } } : State).raise srcPoolLow := by
  unfold State.setThresholds
  rw [if_neg (by simp [released]), if_pos below]
  rfl

theorem State.setThresholds_of_released (released : s.pool.held = false) (above : a.hold ≤ s.pool.free) :
    s.setThresholds a = { s with pool := { s.pool with holdThreshold := a.hold, releaseThreshold := a.release } } := by
  unfold State.setThresholds
  rw [if_neg (by simp [released]), if_neg (by omega)]

theorem State.setThresholds_of_held (held : s.pool.held = true) :
    s.setThresholds a = { s with pool := { s.pool with
      holdThreshold := a.hold, releaseThreshold := a.release, held := decide (s.pool.free ≤ a.release) } } := by
  unfold State.setThresholds
  rw [if_pos held]
  by_cases h : a.release < s.pool.free
  · rw [if_pos h, decide_eq_false (Nat.not_le.mpr h)]
  · rw [if_neg h, decide_eq_true (Nat.not_lt.mp h), held.symm]

theorem State.poolSet_of_badRange (c : Command) (h : 4095 < a.hold ∨ 4095 < a.release ∨ a.release ≤ a.hold) :
    s.poolSet c a = s.finish c .badRange [] := by
  have bad : a.ok = false := decide_eq_false (by omega)
  unfold State.poolSet
  rw [if_neg (by simp [bad])]

theorem State.poolSet_of_range (c : Command) (hold : a.hold ≤ 4095) (release : a.release ≤ 4095) (order : a.hold < a.release) :
    s.poolSet c a = ((s.setThresholds a).finish c .ok (s.setThresholds a).pool.setResult).arbitrate := by
  have good : a.ok = true := decide_eq_true ⟨hold, release, order⟩
  unfold State.poolSet
  rw [if_pos good]

end

/-- Settles O27: allocation and freeing by their cases, and POOL_SET by the hold it finds. -/
theorem cellPoolByItsRules : Obligations.CellPoolByItsRules := by
  refine ⟨fun s n => ⟨?_, fun _ refused => State.allocate_of_refused refused, State.allocate_of_kept, State.allocate_of_asserted,
    State.freeCells_of_pos⟩, fun s c rest h1 h0 r1 r0 hold release hb he params hhold hrelease => ?_⟩
  · rintro rfl
    exact ⟨s.allocate_zero, s.freeCells_zero⟩
  · have parsed : readWhole readPoolSet c.params = some ⟨hold, release⟩ := by
      rw [params, hhold, hrelease, ← be16_toNat, ← be16_toNat]
      rfl
    rw [exec_poolSet_begins hb he parsed]
    refine ⟨fun bad => ?_, fun low high order => ?_⟩
    · rw [State.poolSet_of_badRange c (by exact bad), State.dequeued_finish]
    · rw [State.poolSet_of_range c (by exact low) (by exact high) (by exact order)]
      refine ⟨fun released below => ?_, fun released above => ?_, fun held => ?_⟩
      · rw [State.setThresholds_of_asserted (s := s.dequeued rest) released (by exact below)]
        rfl
      · rw [State.setThresholds_of_released (s := s.dequeued rest) released (by exact above)]
        unfold Pool.setResult
        rw [show (s.dequeued rest).pool = s.pool from rfl, released]
        rfl
      · rw [State.setThresholds_of_held (s := s.dequeued rest) held]
        rfl

/-! ## Closing and handing off (R104, R105) -/

theorem Lane.offered_eq_some_iff {ln : Lane} {b : Bundle} : ln.offered = some b ↔ ln.asm.openB = some b ∧ b.closeReason ≠ none := by
  unfold Lane.offered
  cases ln.asm.openB with
  | none => simp
  | some x => by_cases h : x.closeReason = none <;> simp [h, Option.isSome_iff_ne_none] <;> rintro rfl <;> exact h

theorem Lane.offered_eq_none {ln : Lane} (h : ∀ b, ln.asm.openB = some b → b.closeReason = none) : ln.offered = none := by
  refine Option.eq_none_iff_forall_ne_some.mpr fun b offered => ?_
  obtain ⟨opened, closed⟩ := Lane.offered_eq_some_iff.mp offered
  exact closed (h b opened)

section
variable (now : Word) (reason : CloseReason) {ln : Lane}

theorem Lane.close_of_records {b : Bundle} (opened : ln.asm.openB = some b) (records : b.records ≠ []) (unclosed : b.closeReason = none) :
    ln.close now reason = { ln with asm := { ln.asm with
      openB := some { b with closeTime := some now, closeReason := some reason }
      idle := .stopped, age := .stopped, counters := ln.asm.counters.countClose reason } } := by
  unfold Lane.close
  rw [opened]
  exact if_pos ⟨records, unclosed⟩

theorem Lane.close_of_none (h : ∀ b, ln.asm.openB = some b → b.records = [] ∨ b.closeReason ≠ none) : ln.close now reason = ln := by
  unfold Lane.close
  split
  · rename_i b opened
    refine if_neg ?_
    rintro ⟨records, unclosed⟩
    exact (h b opened).elim records fun closed => closed unclosed
  · rfl

end

section
variable (l : LaneId) {ln : Lane} {b : Bundle}

theorem Lane.handOff_of_room (room : ln.ldu.ready.length < 32) (b : Bundle) : ln.handOff l b =
    ⟨{ ln.asm with openB := some ⟨l, .open, [], 0, 0, none, none, none, none, 0⟩, pendingB := none },
     { ln.ldu with c := ln.ldu.c + 1, ready := ln.ldu.ready ++ [{ b with state := .ready, seq := some ln.ldu.c }] }⟩ :=
  if_pos room

theorem Lane.handOff_of_full (full : 32 ≤ ln.ldu.ready.length) (b : Bundle) : ln.handOff l b =
    ⟨{ ln.asm with openB := none, pendingB := some { b with state := .closePending } }, ln.ldu⟩ :=
  if_neg (Nat.not_lt.mpr full)

theorem Lane.settle_of_offered (h : ln.offered = some b) : ln.settle l = ln.handOff l b := by
  unfold Lane.settle
  rw [h]

theorem Lane.settle_of_none (h : ln.offered = none) : ln.settle l = ln := by
  unfold Lane.settle
  rw [h]

end

section
variable {s : State} {l : LaneId} (running : s.resetN = true)
include running

theorem exec_handoff_of_offered {b : Bundle} (h : (s.lane l).offered = some b) :
    exec (.handoff l) s = .next ((s.setLane l ((s.lane l).handOff l b)).arbitrate) := by
  rw [exec_handoff, onLane_of_resetN running, h, Lane.settle_of_offered l h]
  rfl

theorem exec_handoff_of_none (h : (s.lane l).offered = none) : exec (.handoff l) s = .next s := by
  rw [exec_handoff, onLane_of_resetN running, h]
  rfl

end

/-- Settles O28: the close of an open bundle, and the handoff by the room in the ready queue. -/
theorem closedBundlesAreHandedOff : Obligations.ClosedBundlesAreHandedOff := by
  refine ⟨fun s l x => ⟨rfl, s.lane_setLane l x, fun k hk => s.lane_setLane_ne x hk, rfl⟩,
    fun ln => ⟨rfl, rfl, fun b => Lane.offered_eq_some_iff⟩,
    fun now reason ln => ⟨fun b => Lane.close_of_records now reason, Lane.close_of_none now reason⟩,
    fun k => ⟨rfl, rfl, rfl, rfl, rfl, rfl, rfl⟩,
    fun l ln b => ⟨fun room => Lane.handOff_of_room l room b, fun full => Lane.handOff_of_full l full b,
      fun opened closed => Lane.settle_of_offered l (Lane.offered_eq_some_iff.mpr ⟨opened, closed⟩),
      fun unclosed => Lane.settle_of_none l (Lane.offered_eq_none unclosed)⟩,
    fun s l running => ⟨fun b reason opened closed => ?_, fun unclosed => ?_⟩⟩
  · rw [exec_handoff_of_offered running (Lane.offered_eq_some_iff.mpr ⟨opened, by simp [closed]⟩)]
    refine ⟨fun room => ?_, fun full => ?_⟩
    · rw [Lane.handOff_of_room l room]
    · rw [Lane.handOff_of_full l full]
  · exact exec_handoff_of_none running (Lane.offered_eq_none unclosed)

/-! ## Placement into the open bundle (R96 to R98) -/

/-- The encoded size of a record is the number of its bytes (R91, 10.3). -/
theorem PlacedRecord.length_encode (r : PlacedRecord) : r.encode.length = r.size := by
  cases r with
  | bound stream ts value =>
    simp [PlacedRecord.encode, PlacedRecord.size, encCount, enc8, enc16, enc32]
    omega
  | unbound key rule ts value =>
    simp [PlacedRecord.encode, PlacedRecord.size, enc8, enc16, enc24, enc32]
    omega

theorem cellsFor_eq (payload : Nat) : cellsFor payload = (16 + payload + 63) / 64 := rfl

/-- The request of a placement for cells: those of the bundle after the append, less those it holds (R96). -/
theorem cellsFor_append (payload size : Nat) : cellsFor (payload + size) = (16 + payload + size + 63) / 64 := by
  rw [cellsFor_eq, ← Nat.add_assoc 16]

section
variable {s : State} (l : LaneId) {b : Bundle} {q : PlacementRequest} {need : Nat}
  (hneed : need = (16 + b.payload + q.record.size + 63) / 64 - b.cells)
include hneed

theorem State.placeInto_of_refused (h : s.allocate need = none) : s.placeInto l b q =
    ((s.raise srcPoolEmptyDrop).setLane l { s.lane l with asm := { (s.lane l).asm with
      counters := { (s.lane l).asm.counters with dropPoolEmpty := satInc (s.lane l).asm.counters.dropPoolEmpty } } }, .poolEmpty) := by
  unfold State.placeInto
  rw [cellsFor_append, ← hneed]
  dsimp only
  rw [h]
  rfl

theorem State.placeInto_of_granted {t : State} (h : s.allocate need = some t) : s.placeInto l b q =
    (t.setLane l (((s.lane l).append s.deviceTime b q.record need).closeCheck s.deviceTime q.urgent), .placed) := by
  have same : t.lane l = s.lane l := by rw [State.allocate_frame _ _ _ h]; rfl
  unfold State.placeInto
  rw [cellsFor_append, ← hneed]
  dsimp only
  rw [h]
  dsimp only
  rw [same]

end

theorem Lane.openRecords_append (now : Word) (ln : Lane) (b : Bundle) (r : PlacedRecord) (cells : Nat) :
    (ln.append now b r cells).openRecords = b.records ++ [r] := rfl

section
variable (now : Word) (urgent : Bool) {ln : Lane}

theorem Lane.closeCheck_of_limit (h : ln.asm.config.recordLimit ≤ ln.openRecords.length) :
    ln.closeCheck now urgent = ln.close now .count := if_pos h

theorem Lane.closeCheck_of_below (h : ln.openRecords.length < ln.asm.config.recordLimit) :
    ln.closeCheck now urgent = if urgent then ln.close now .urgent else ln := if_neg (Nat.not_le.mpr h)

end

/-- Settles O29: the size of a record, and an append by the answer of the pool and the close check. -/
theorem placementAppendsTheRecord : Obligations.PlacementAppendsTheRecord := by
  refine ⟨⟨fun _ _ _ => rfl, fun _ _ _ _ => rfl, PlacedRecord.length_encode, cellsFor_eq⟩, fun s l b q need hneed =>
    ⟨State.placeInto_of_refused l hneed, fun t ln granted hln => ?_⟩⟩
  have appended : ln = (s.lane l).append s.deviceTime b q.record need := hln
  have records : ln.openRecords.length = b.records.length + 1 := by
    rw [appended, Lane.openRecords_append, List.length_append, List.length_singleton]
  have config : ln.asm.config = (s.lane l).asm.config := by rw [appended]; rfl
  rw [State.placeInto_of_granted l hneed granted, ← appended]
  refine ⟨fun limit => ?_, fun below => ?_⟩
  · rw [Lane.closeCheck_of_limit _ _ (by rw [config, records]; exact limit)]
  · rw [Lane.closeCheck_of_below _ _ (by rw [config, records]; exact below)]

/-! ## PLACEMENT (R60, R93 to R95) -/

theorem State.placeStage_of_place {s : State} {f : FrameInProgress} {r : FieldRecord} {route : Route} {l : LaneId}
    (h : s.inStage f r (.place route l)) : s.placeStage = ((s.place l (route.request (f.key r) r)).1.routeEnds f route
      (s.place l (route.request (f.key r) r)).2.outcome).arbitrate := by
  obtain ⟨-, hframe, hrecord, hstage⟩ := h
  have record : f.record = some r := hrecord
  simp only [State.placeStage, hframe, hstage, record]

theorem PlacementAnswer.outcome_eq (x : PlacementAnswer) : x.outcome = if x = .placed then .accepted else .dropped := by
  cases x <;> rfl

theorem State.place_classifier (s : State) (l : LaneId) (q : PlacementRequest) : (s.place l q).1.classifier = s.classifier := by
  rw [State.place_frame]

section
variable {s0 : State} {l : LaneId} (q : PlacementRequest) {s : State} {ln : Lane} (hln : ln = (s0.lane l).settle l)
  (hs : s = s0.setLane l ln)
include hs

theorem State.lane_of_settled : s.lane l = ln := by rw [hs, State.lane_setLane]

include hln

theorem State.place_of_disabled (h : ln.ldu.state = .disabled) : s0.place l q = (s.setLane l { ln with asm := { ln.asm with
    counters := { ln.asm.counters with dropDisabled := satInc ln.asm.counters.dropDisabled } } }, .laneDisabled) := by
  have lane := State.lane_of_settled hs
  unfold State.place
  dsimp only
  rw [← hln, ← hs, lane, h]
  dsimp only
  unfold State.countAsm
  rw [lane]

theorem State.place_of_draining (h : ln.ldu.state = .draining) : s0.place l q = (s.setLane l { ln with asm := { ln.asm with
    counters := { ln.asm.counters with dropDraining := satInc ln.asm.counters.dropDraining } } }, .laneDraining) := by
  have lane := State.lane_of_settled hs
  unfold State.place
  dsimp only
  rw [← hln, ← hs, lane, h]
  dsimp only
  unfold State.countAsm
  rw [lane]

/-- In OPEN or STALLED a lane without a pending bundle takes the record into the bundle that R95 chooses. -/
theorem State.place_of_service (h : ln.ldu.state = .open ∨ ln.ldu.state = .stalled) : s0.place l q =
    if ln.closePending then s.answerLaneFull l
    else match (ln.makeRoom l s0.deviceTime q.record.size).asm.openB with
      | some b => (s.setLane l (ln.makeRoom l s0.deviceTime q.record.size)).placeInto l b q
      | none => (s.setLane l (ln.makeRoom l s0.deviceTime q.record.size)).answerLaneFull l := by
  have lane := State.lane_of_settled hs
  have now : s.deviceTime = s0.deviceTime := by rw [hs]; rfl
  unfold State.place
  dsimp only
  rw [← hln, ← hs, lane, now, State.lane_setLane]
  rcases h with state | state <;> rw [state] <;> rfl

end

theorem State.answerLaneFull_setLane (s : State) (l : LaneId) (y : Lane) : (s.setLane l y).answerLaneFull l =
    ((s.setLane l { y with asm := { y.asm with
      counters := { y.asm.counters with dropLaneFull := satInc y.asm.counters.dropLaneFull } } }).raise (srcLaneFullDrop l), .laneFull) := by
  unfold State.answerLaneFull State.countAsm
  rw [State.lane_setLane, State.setLane_setLane]

section
variable (l : LaneId) (now : Word) (size : Nat) {ln : Lane} {b : Bundle} (opened : ln.asm.openB = some b)
include opened

theorem Lane.makeRoom_of_fits (h : b.records = [] ∨ 16 + b.payload + size ≤ ln.asm.config.maxBytes) :
    ln.makeRoom l now size = ln := by
  unfold Lane.makeRoom
  rw [opened]
  refine if_neg ?_
  rintro ⟨records, unfit⟩
  exact h.elim records fun fits => absurd fits (of_decide_eq_false unfit)

theorem Lane.makeRoom_of_closed (records : b.records ≠ []) (unclosed : b.closeReason = none)
    (unfit : ln.asm.config.maxBytes < 16 + b.payload + size) : ln.makeRoom l now size =
      (ln.close now .fill).handOff l { b with closeTime := some now, closeReason := some .fill } := by
  have offered : (ln.close now .fill).offered = some { b with closeTime := some now, closeReason := some .fill } := by
    rw [Lane.close_of_records now .fill opened records unclosed]
    rfl
  unfold Lane.makeRoom
  rw [opened]
  dsimp only
  rw [if_pos ⟨records, decide_eq_false (Nat.not_le.mpr unfit)⟩]
  exact Lane.settle_of_offered l offered

end

/-- Settles O30: the stage hands the record to its lane, and the lane answers by its state, its pending bundle and R95's choice. -/
theorem placementAnswersByItsSteps : Obligations.PlacementAnswersByItsSteps := by
  refine ⟨fun s f r l => ⟨fun snap ts n h x hx => ?_, fun i k h => ?_⟩, fun s0 l q s ln hln hs =>
    ⟨State.place_of_disabled q hln hs, State.place_of_draining q hln hs, fun service full hfull => ?_⟩⟩
  · rw [exec_placement, running_of_resetN _ h.1, State.placeStage_of_place h]
    have request : (Route.bound snap ts n).request (f.key r) r = ⟨.bound snap.stream r.timestamp r.value, snap.urgent⟩ := rfl
    rw [request, ← hx, PlacementAnswer.outcome_eq, ← State.place_classifier s l ⟨.bound snap.stream r.timestamp r.value, snap.urgent⟩, ← hx]
    rfl
  · rw [exec_placement, running_of_resetN _ h.1, State.placeStage_of_place h]
    rfl
  · have lane := State.lane_of_settled hs
    have onto : s.setLane l ln = s := by rw [← lane, State.setLane_lane]
    have answer : ∀ y, (s.setLane l y).answerLaneFull l = (full y, .laneFull) := fun y => by
      rw [State.answerLaneFull_setLane, hfull]
    rw [State.place_of_service q hln hs service]
    refine ⟨fun pending => ?_, fun pending b opened => ⟨fun fits => ?_, fun records unclosed unfit closed hclosed => ?_⟩⟩
    · have flagged : ln.closePending = true := Option.isSome_iff_ne_none.mpr pending
      rw [if_pos flagged, ← answer, onto]
    · rw [if_neg (by simp [Lane.closePending, pending]), Lane.makeRoom_of_fits l _ _ opened fits, opened, onto]
    · rw [if_neg (by simp [Lane.closePending, pending]), Lane.makeRoom_of_closed l _ _ opened records unclosed unfit, ← hclosed]
      have ready : (ln.close s0.deviceTime .fill).ldu.ready = ln.ldu.ready := by rw [Lane.close_ldu]
      refine ⟨fun room => ?_, fun queued => ?_⟩
      · rw [Lane.handOff_of_room l (by rw [ready]; exact room)]
      · rw [← answer, Lane.handOff_of_full l (by rw [ready]; exact queued)]

/-! ## IDLE_TIMER_EXPIRY and AGE_TIMER_EXPIRY (R101 to R103) -/

theorem Timer.due_of_reached {t : Timer} {now e : Word} {reached : Bool} (h : t = .running e reached) (due : reached = true ∨ e = now) :
    t.due now = true := by
  subst h
  rcases due with rfl | rfl <;> simp [Timer.due]

theorem Timer.not_due {t : Timer} {now : Word} (h : t = .stopped ∨ ∃ e, t = .running e false ∧ e ≠ now) : t.due now = false := by
  rcases h with rfl | ⟨e, rfl, other⟩
  · rfl
  · simpa [Timer.due] using other

/-- Settles O31: each of the two expiries, by whether it is reached. -/
theorem timerExpiriesCloseTheBundle : Obligations.TimerExpiriesCloseTheBundle := by
  intro s l running
  rw [exec_idleTimerExpiry, exec_ageTimerExpiry, onLane_of_resetN running, onLane_of_resetN running]
  refine ⟨fun e reached timer due => ?_, fun e reached timer due => ?_, fun idle => ?_, fun age => ?_⟩
  · rw [if_pos (Timer.due_of_reached timer due)]
  · rw [if_pos (Timer.due_of_reached timer due)]
  · rw [if_neg (by simp [Timer.not_due idle])]
  · rw [if_neg (by simp [Timer.not_due age])]

end Sys2Proof.Machine

/-! LANE_UPDATE and its parts. Proofs of O32 and O33. -/

namespace Sys2Proof.Machine

/-! ## Bundles that leave their lane (R77, R120) -/

section
variable {s : State} {l : LaneId} {b : Bundle}

theorem State.discard_of_onWire {mode : TxMode} {q : SeqNo} {bytes : List Byte}
    (wire : s.trunk.outbound = some (.bundle l mode (.retained q) bytes)) (numbered : b.seq = some q) :
    s.discard l b = { s with trunk := { s.trunk with
      outbound := some (.bundle l mode (.releasing { b with state := .releasing }) bytes) } } := by
  unfold State.discard
  rw [wire]
  exact if_pos ⟨rfl, numbered⟩

theorem State.discard_of_offWire (h : ∀ mode q bytes, s.trunk.outbound = some (.bundle l mode (.retained q) bytes) → b.seq ≠ some q) :
    s.discard l b = s.freeCells b.cells := by
  unfold State.discard
  split
  · rename_i l' mode q bytes wire
    refine if_neg ?_
    rintro ⟨rfl, numbered⟩
    exact h mode q bytes wire numbered
  · rfl

/-- A bundle without a sequence holds no wire; with no cells its end changes nothing. -/
theorem State.discard_of_empty (cells : b.cells = 0) (unnumbered : b.seq = none) : s.discard l b = s := by
  rw [State.discard_of_offWire fun _ _ _ _ => by simp [unnumbered], cells, State.freeCells_zero]

theorem State.onWire_of_retained {mode : TxMode} {q : SeqNo} {bytes : List Byte}
    (wire : s.trunk.outbound = some (.bundle l mode (.retained q) bytes)) (numbered : b.seq = some q) (sent : b.state = .sent) :
    s.onWire l b = true := by
  unfold State.onWire
  rw [wire]
  simp [numbered, sent]

theorem State.onWire_of_releasing {mode : TxMode} {bytes : List Byte}
    (wire : s.trunk.outbound = some (.bundle l mode (.releasing b) bytes)) : s.onWire l b = true := by
  unfold State.onWire
  rw [wire]
  simp

theorem State.onWire_of_other (h : ∀ mode carried bytes, s.trunk.outbound ≠ some (.bundle l mode carried bytes)) :
    s.onWire l b = false := by
  unfold State.onWire
  split
  · rename_i l' mode q bytes wire
    have other : l' ≠ l := fun same => h mode _ bytes (same ▸ wire)
    simp [other]
  · rename_i l' mode x bytes wire
    have other : l' ≠ l := fun same => h mode _ bytes (same ▸ wire)
    simp [other]
  · rfl

end

/-! ## The drain check (R135) -/

section
variable {s : State} {l : LaneId}

theorem Lane.drained_eq_true {ln : Lane} (state : ln.ldu.state = .draining) (opened : ln.openRecords = []) (pending : ln.asm.pendingB = none)
    (ready : ln.ldu.ready = []) (retained : ln.ldu.retention = []) : ln.drained = true := by
  simp [Lane.drained, state, opened, pending, ready, retained]

theorem Lane.drained_eq_false {ln : Lane} (h : ln.ldu.state ≠ .draining ∨ ln.openRecords ≠ [] ∨ ln.asm.pendingB ≠ none
    ∨ ln.ldu.ready ≠ [] ∨ ln.ldu.retention ≠ []) : ln.drained = false := by
  refine Bool.eq_false_iff.mpr fun drained => ?_
  simp only [Lane.drained, Bool.and_eq_true, beq_iff_eq, List.isEmpty_iff, Option.isNone_iff_eq_none] at drained
  obtain ⟨⟨⟨⟨state, opened⟩, pending⟩, ready⟩, retained⟩ := drained
  rcases h with h | h | h | h | h
  · exact h state
  · exact h opened
  · exact h pending
  · exact h ready
  · exact h retained

theorem Lane.openRecords_eq_nil {ln : Lane} (h : ∀ b, ln.asm.openB = some b → b.records = []) : ln.openRecords = [] := by
  unfold Lane.openRecords
  split
  · exact h _ ‹_›
  · rfl

theorem Lane.openRecords_of_open {ln : Lane} {b : Bundle} (h : ln.asm.openB = some b) : ln.openRecords = b.records := by
  unfold Lane.openRecords
  rw [h]

/-- A lane whose only bundle is an empty open one goes to DISABLED with nothing to discard. -/
theorem State.disableLane_of_empty (opened : ∀ b, (s.lane l).asm.openB = some b → b.cells = 0 ∧ b.seq = none)
    (pending : (s.lane l).asm.pendingB = none) (ready : (s.lane l).ldu.ready = []) (retained : (s.lane l).ldu.retention = []) :
    s.disableLane l = s.setLane l (s.lane l).disabled := by
  have nothing : (s.lane l).bundles.foldl (State.discard l) s = s := by
    unfold Lane.bundles
    rw [pending, ready, retained]
    cases h : (s.lane l).asm.openB with
    | none => rfl
    | some b => exact State.discard_of_empty (opened b h).1 (opened b h).2
  unfold State.disableLane
  rw [nothing]

theorem State.drainCheck_of_drained (h : (s.lane l).drained = true) : s.drainCheck l = (s.disableLane l).notify .laneDrained l :=
  if_pos h

theorem State.drainCheck_of_not_drained (h : (s.lane l).drained = false) : s.drainCheck l = s :=
  if_neg (by simp [h])

end

/-! ## LANE_UPDATE (R118, R119) -/

section
variable {s : State} {u : LaneUpdate} {rest : List Handover}

theorem State.takeUpdate_of_none (h : s.trunk.handed = [] ∨ ∃ c rest, s.trunk.handed = .arrival c :: rest) : s.takeUpdate = s := by
  unfold State.takeUpdate
  rcases h with h | ⟨c, rest, h⟩ <;> rw [h]

variable (handed : s.trunk.handed = .update u :: rest)
include handed

theorem State.takeUpdate_of_reset (reset : s.resetInExecution = true) : s.takeUpdate =
    ({ s with trunk := { s.trunk with handed := rest } } : State).countTrunk fun c =>
      { c with updatesDiscardedReset := satInc c.updatesDiscardedReset } := by
  unfold State.takeUpdate
  rw [handed]
  exact if_pos reset

variable (noReset : s.resetInExecution = false)
include noReset

theorem State.takeUpdate_of_disabled (h : (s.lane u.lane).ldu.state = .disabled) : s.takeUpdate =
    ({ s with trunk := { s.trunk with handed := rest } } : State).countTrunk fun c =>
      { c with updateIdleLane := satInc c.updateIdleLane } := by
  unfold State.takeUpdate
  rw [handed]
  dsimp only
  rw [if_neg (by simp [noReset]), h]

theorem State.takeUpdate_of_service (h : (s.lane u.lane).ldu.state ≠ .disabled) : s.takeUpdate =
    (({ s with trunk := { s.trunk with handed := rest } } : State).applyUpdate u).arbitrate := by
  unfold State.takeUpdate
  rw [handed]
  dsimp only
  rw [if_neg (by simp [noReset])]
  split
  · exact absurd ‹_› h
  all_goals rfl

end

section
variable {s : State} {u : LaneUpdate}

theorem State.applyUpdate_of_badAck (h : distance (s.lane u.lane).ldu.a (s.lane u.lane).ldu.s < distance (s.lane u.lane).ldu.a u.ack) :
    s.applyUpdate u = s.refuseUpdate := if_pos h

theorem Ldu.judgeGrant_eq_refused {d : Ldu} {g : SeqNo} : d.judgeGrant g = .refused ↔ isOlder g d.s = true := by
  unfold Ldu.judgeGrant
  split
  · simp [*]
  · split <;> simp [*]

theorem Ldu.refusesResend_eq_true {d : Ldu} {x : Option SeqNo} :
    d.refusesResend x = true ↔ ∃ y, x = some y ∧ distance d.a d.s ≤ distance d.a y := by
  cases x <;> simp [Ldu.refusesResend, Ldu.retains]

variable {s1 s2 s3 : State} (ack : distance (s.lane u.lane).ldu.a u.ack ≤ distance (s.lane u.lane).ldu.a (s.lane u.lane).ldu.s)
  (h1 : s1 = s.applyAck u.lane u.ack) (h2 : s2 = s1.applyGrant u.lane u.grant) (h3 : s3 = s2.applyResend u.lane u.resendFrom)
include ack h1 h2 h3

/-- An update by parts: refused where its grant or its resend-from is, and then the drain check. -/
theorem State.applyUpdate_by_parts : s.applyUpdate u =
    (if decide ((s1.lane u.lane).ldu.judgeGrant u.grant = .refused) || (s2.lane u.lane).ldu.refusesResend u.resendFrom
      then s3.refuseUpdate else s3).drainCheck u.lane := by
  subst h1 h2 h3
  exact if_neg (Nat.not_lt.mpr ack)

theorem State.applyUpdate_of_refused (h : isOlder u.grant (s1.lane u.lane).ldu.s = true
    ∨ ∃ x, u.resendFrom = some x ∧ distance (s2.lane u.lane).ldu.a (s2.lane u.lane).ldu.s ≤ distance (s2.lane u.lane).ldu.a x) :
    s.applyUpdate u = s3.refuseUpdate.drainCheck u.lane := by
  rw [State.applyUpdate_by_parts ack h1 h2 h3, if_pos]
  rw [Bool.or_eq_true, decide_eq_true_iff, Ldu.judgeGrant_eq_refused, Ldu.refusesResend_eq_true]
  exact h

theorem State.applyUpdate_of_taken (grant : isOlder u.grant (s1.lane u.lane).ldu.s = false)
    (resend : ∀ x, u.resendFrom = some x →
      distance (s2.lane u.lane).ldu.a x < distance (s2.lane u.lane).ldu.a (s2.lane u.lane).ldu.s) :
    s.applyUpdate u = s3.drainCheck u.lane := by
  rw [State.applyUpdate_by_parts ack h1 h2 h3, if_neg]
  rw [Bool.or_eq_true, decide_eq_true_iff, Ldu.judgeGrant_eq_refused, Ldu.refusesResend_eq_true]
  rintro (older | ⟨x, named, beyond⟩)
  · rw [grant] at older
    cases older
  · exact absurd (resend x named) (Nat.not_lt.mpr beyond)

end

/-- Settles O32: the update in flight by the state of the part and of its lane, its parts in order, and the drain check. -/
theorem laneUpdateIsTakenByParts : Obligations.LaneUpdateIsTakenByParts := by
  refine ⟨fun s running none => ?_, fun s l ln hln => ⟨fun state opened pending ready retained => ?_, fun other => ?_⟩,
    fun s u rest s0 d running handed hs0 hd => ?_⟩
  · rw [exec_laneUpdate, running_of_resetN _ running, State.takeUpdate_of_none none]
  · subst hln
    rw [State.drainCheck_of_drained (Lane.drained_eq_true state (Lane.openRecords_eq_nil fun b h => (opened b h).1) pending ready retained),
      State.disableLane_of_empty (fun b h => (opened b h).2) pending ready retained]
    rfl
  · subst hln
    refine State.drainCheck_of_not_drained (Lane.drained_eq_false (other.imp_right (Or.imp_left ?_)))
    rintro ⟨b, opened, records⟩
    rw [Lane.openRecords_of_open opened]
    exact records
  · rw [exec_laneUpdate, running_of_resetN _ running]
    refine ⟨fun reset => ?_, fun noReset => ⟨fun disabled => ?_, fun service beyond => ?_, fun service valid s1 s2 s3 h1 h2 h3 =>
      ⟨fun refused => ?_, fun grant resend => ?_⟩⟩⟩
    · rw [State.takeUpdate_of_reset handed reset, hs0]
    · rw [State.takeUpdate_of_disabled handed noReset (hd ▸ disabled), hs0]
    · have ack : distance (s0.lane u.lane).ldu.a (s0.lane u.lane).ldu.s < distance (s0.lane u.lane).ldu.a u.ack := by
        rw [hs0]
        exact hd ▸ beyond
      rw [State.takeUpdate_of_service handed noReset (hd ▸ service), ← hs0, State.applyUpdate_of_badAck ack]
      rfl
    all_goals
      have ack : distance (s0.lane u.lane).ldu.a u.ack ≤ distance (s0.lane u.lane).ldu.a (s0.lane u.lane).ldu.s := by
        rw [hs0]
        exact hd ▸ valid
      rw [State.takeUpdate_of_service handed noReset (hd ▸ service), ← hs0]
    · rw [State.applyUpdate_of_refused ack h1 h2 h3 refused]
      rfl
    · rw [State.applyUpdate_of_taken ack h1 h2 h3 grant resend]

/-! ## The end of a stall (R108, R121, R134) -/

section
variable (l : LaneId) (now : Word) {ln d : Lane}

theorem Lane.enterDraining_eq (hd : d = { ln.settle l with ldu := { (ln.settle l).ldu with state := .draining } }) :
    ln.enterDraining l now = (d.close now .drain).settle l := by
  rw [hd]
  rfl

theorem Lane.enterDraining_of_records (hd : d = { ln.settle l with ldu := { (ln.settle l).ldu with state := .draining } })
    {b : Bundle} (opened : d.asm.openB = some b) (records : b.records ≠ []) (unclosed : b.closeReason = none) :
    ln.enterDraining l now = (d.close now .drain).handOff l { b with closeTime := some now, closeReason := some .drain } := by
  have offered : (d.close now .drain).offered = some { b with closeTime := some now, closeReason := some .drain } := by
    rw [Lane.close_of_records now .drain opened records unclosed]
    rfl
  rw [Lane.enterDraining_eq l now hd, Lane.settle_of_offered l offered]

theorem Lane.enterDraining_of_empty (hd : d = { ln.settle l with ldu := { (ln.settle l).ldu with state := .draining } })
    (h : ∀ b, d.asm.openB = some b → b.records = [] ∧ b.closeReason = none) : ln.enterDraining l now = d := by
  rw [Lane.enterDraining_eq l now hd, Lane.close_of_none now .drain fun b opened => .inl (h b opened).1,
    Lane.settle_of_none l (Lane.offered_eq_none fun b opened => (h b opened).2)]

theorem Lane.leaveStall_eq (ln : Lane) : ln.leaveStall l now = (if ln.ldu.state ≠ .stalled then ln
    else if ln.ldu.drainRequested then ({ ln with ldu := { ln.ldu with drainRequested := false } } : Lane).enterDraining l now
    else { ln with ldu := { ln.ldu with state := .open } }) := by
  unfold Lane.leaveStall
  cases ln.ldu.state <;> rfl

end

/-! ## The retransmit timer (R130) -/

theorem Lane.startTimer_eq (up : Bool) (now : Word) (ln : Lane) : ln.startTimer up now = { ln with ldu := { ln.ldu with
    timer := if up = true ∧ (ln.ldu.state = .open ∨ ln.ldu.state = .draining) ∧ ln.ldu.retention ≠ [] then
        .running (now + BitVec.ofNat 32 (1000 * ln.ldu.config.timeoutMs)) false
      else ln.ldu.timer } } := by
  have condition : (up = true ∧ (ln.ldu.state = .open ∨ ln.ldu.state = .draining) ∧ ln.ldu.retention ≠ []) ↔ ln.mayRun up = true := by
    simp [Lane.mayRun, and_assoc]
  unfold Lane.startTimer
  by_cases h : ln.mayRun up = true
  · rw [if_pos h, if_pos (condition.mpr h)]
    rfl
  · rw [if_neg h, if_neg fun c => h (condition.mp c)]

/-- After an ack the timer stops with nothing retained, and else restarts where R130 lets it run (R121). -/
theorem Lane.ackTimer_eq (up : Bool) (now : Word) (ln : Lane) :
    (if ln.ldu.retention.isEmpty then { ln with ldu := { ln.ldu with timer := .stopped } } else ln.startTimer up now : Lane) =
      { ln with ldu := { ln.ldu with
        timer := if ln.ldu.retention = [] then .stopped
          else if up = true ∧ (ln.ldu.state = .open ∨ ln.ldu.state = .draining) then
            .running (now + BitVec.ofNat 32 (1000 * ln.ldu.config.timeoutMs)) false
          else ln.ldu.timer } } := by
  by_cases h : ln.ldu.retention = []
  · rw [if_pos h, if_pos (List.isEmpty_iff.mpr h)]
  · rw [if_neg h, if_neg (fun e => h (List.isEmpty_iff.mp e)), Lane.startTimer_eq]
    simp [h]

/-! ## The ack, the grant and the resend-from (R120 to R123) -/

section
variable {s : State} {l : LaneId} {ln : Lane} (hln : ln = s.lane l)
include hln

theorem State.applyAck_of_same {ack : SeqNo} (h : ack = ln.ldu.a) : s.applyAck l ack = s := by
  subst hln
  exact if_pos h

theorem State.applyAck_of_ahead {ack : SeqNo} (h : ack ≠ ln.ldu.a) : s.applyAck l ack =
    ((ln.ldu.retention.take (distance ln.ldu.a ack)).foldl (State.discard l) s).setLane l
      (ln.ackAdvance l s.trunk.linkUp s.deviceTime ack) := by
  subst hln
  exact if_neg h

theorem State.applyGrant_of_refused {g : SeqNo} (h : isOlder g ln.ldu.s = true) : s.applyGrant l g = s := by
  subst hln
  have judged : (s.lane l).ldu.judgeGrant g = .refused := Ldu.judgeGrant_eq_refused.mpr h
  unfold State.applyGrant Ldu.afterGrant
  dsimp only
  rw [judged]
  exact s.setLane_lane l

theorem State.applyGrant_of_taken {g : SeqNo} (h : isOlder g ln.ldu.s = false) (within : distance ln.ldu.a g ≤ ln.ldu.config.window) :
    s.applyGrant l g = s.setLane l { ln with ldu := { ln.ldu with g := g } } := by
  subst hln
  have judged : (s.lane l).ldu.judgeGrant g = .taken := by
    unfold Ldu.judgeGrant
    rw [if_neg (by simp [h]), if_pos within]
  unfold State.applyGrant Ldu.afterGrant
  dsimp only
  rw [judged]

theorem State.applyGrant_of_clamped {g : SeqNo} (h : isOlder g ln.ldu.s = false) (beyond : ln.ldu.config.window < distance ln.ldu.a g) :
    s.applyGrant l g = (s.setLane l { ln with ldu := { ln.ldu with g := ln.ldu.a + BitVec.ofNat 16 ln.ldu.config.window } }).countTrunk
      fun c => { c with grantClamped := satInc c.grantClamped } := by
  subst hln
  have judged : (s.lane l).ldu.judgeGrant g = .clamped := by
    unfold Ldu.judgeGrant
    rw [if_neg (by simp [h]), if_neg (Nat.not_le.mpr beyond)]
  unfold State.applyGrant Ldu.afterGrant
  dsimp only
  rw [judged]

theorem State.applyResend_of_beyond {x : SeqNo} (h : distance ln.ldu.a ln.ldu.s ≤ distance ln.ldu.a x) :
    s.applyResend l (some x) = s := by
  subst hln
  exact if_neg (by simpa [Ldu.retains] using h)

theorem State.applyResend_of_retained {x : SeqNo} (h : distance ln.ldu.a x < distance ln.ldu.a ln.ldu.s) :
    s.applyResend l (some x) = s.setLane l (ln.resendFrom l s.trunk.linkUp s.deviceTime x) := by
  subst hln
  exact if_pos (by simpa [Ldu.retains] using h)

end

/-- Settles O33: the drain of a stalled lane, the release of a bundle, and the three parts of an update. -/
theorem partsOfALaneUpdate : Obligations.PartsOfALaneUpdate := by
  refine ⟨fun l now ln d hd => ⟨fun b opened records unclosed closed hclosed => ?_, Lane.enterDraining_of_empty l now hd⟩,
    fun s l b mode q bytes numbered sent wire => ⟨State.onWire_of_retained wire numbered sent, ?_, fun t => State.onWire_of_other⟩,
    ⟨fun s l b mode q bytes => ⟨State.discard_of_onWire, State.discard_of_offWire⟩,
      fun s l ack ln hln => ⟨State.applyAck_of_same hln, fun ahead moved left hmoved hleft => ?_⟩⟩,
    fun s l ln hln => ⟨fun g => ⟨State.applyGrant_of_refused hln, State.applyGrant_of_taken hln, State.applyGrant_of_clamped hln⟩, rfl,
      fun x => ⟨State.applyResend_of_beyond hln, fun retained moved left hmoved hleft => ?_⟩⟩⟩
  · rw [Lane.enterDraining_of_records l now hd opened records unclosed, Lane.close_of_records now .drain opened records unclosed, hclosed]
    rfl
  · rw [State.discard_of_onWire wire numbered]
    exact State.onWire_of_releasing rfl
  · have stall : moved.leaveStall l s.deviceTime = left := by rw [Lane.leaveStall_eq, hleft, hmoved]
    have advance : ln.ackAdvance l s.trunk.linkUp s.deviceTime ack =
        if left.ldu.retention.isEmpty then { left with ldu := { left.ldu with timer := .stopped } }
        else left.startTimer s.trunk.linkUp s.deviceTime := by
      rw [← stall, hmoved]
      rfl
    rw [State.applyAck_of_ahead hln ahead, advance, Lane.ackTimer_eq]
  · have stall : moved.leaveStall l s.deviceTime = left := by rw [Lane.leaveStall_eq, hleft, hmoved]
    have resend : ln.resendFrom l s.trunk.linkUp s.deviceTime x = left.startTimer s.trunk.linkUp s.deviceTime := by
      rw [← stall, hmoved]
      rfl
    rw [State.applyResend_of_retained hln retained, resend, Lane.startTimer_eq]

end Sys2Proof.Machine

/-! Sending, the retransmit expiry and the lane commands. Proofs of O34 to O39. -/

namespace Sys2Proof.Machine

/-! ## SEND_START (R124 to R127) -/

theorem State.eligible_iff (s : State) (l : LaneId) : s.eligible l = true ↔
    ((s.lane l).ldu.state = .open ∨ (s.lane l).ldu.state = .draining) ∧ s.trunk.linkUp = true
      ∧ (isNewer (s.lane l).ldu.s (s.lane l).ldu.r = true
        ∨ (isNewer (s.lane l).ldu.c (s.lane l).ldu.s = true ∧ isNewer (s.lane l).ldu.g (s.lane l).ldu.s = true)) := by
  simp [State.eligible, Ldu.resendWaiting, Ldu.firstSendReady, and_assoc]

section
variable {s : State} {l : LaneId}

theorem State.takeSendStart_of_none (request : s.trunk.request = .sendStart l)
    (h : ({ s with trunk := { s.trunk with request := .none } } : State).sendStartAt l = none) :
    s.takeSendStart = ({ s with trunk := { s.trunk with request := .none } } : State).arbitrate := by
  unfold State.takeSendStart
  rw [request]
  dsimp only
  rw [h]

theorem State.takeSendStart_of_some {t : State} (request : s.trunk.request = .sendStart l)
    (h : ({ s with trunk := { s.trunk with request := .none } } : State).sendStartAt l = some t) : s.takeSendStart = t := by
  unfold State.takeSendStart
  rw [request]
  dsimp only
  rw [h]

/-- What the LDU needs of the part and the lane before it looks for a bundle to send (R124, R156, R163). -/
def State.canSend (s : State) (l : LaneId) : Prop :=
  s.trunk.outbound = none ∧ s.resetInExecution = false ∧ ((s.lane l).ldu.state = .open ∨ (s.lane l).ldu.state = .draining)
    ∧ s.trunk.linkUp = true

theorem State.sendStartAt_of_refused (h : ¬ s.canSend l ∨ (isNewer (s.lane l).ldu.s (s.lane l).ldu.r = false
    ∧ (isNewer (s.lane l).ldu.c (s.lane l).ldu.s = false ∨ isNewer (s.lane l).ldu.g (s.lane l).ldu.s = false))) :
    s.sendStartAt l = none := by
  refine if_pos (by_contra fun free => ?_)
  simp only [Bool.or_eq_true, Bool.not_eq_true', not_or, Bool.not_eq_true, Bool.not_eq_false, Option.isSome_eq_false_iff,
    Option.isNone_iff_eq_none] at free
  obtain ⟨⟨wire, reset⟩, eligible⟩ := free
  obtain ⟨state, up, ready⟩ := (s.eligible_iff l).mp eligible
  rcases h with unable | ⟨resend, first⟩
  · exact unable ⟨wire, reset, state, up⟩
  · rcases ready with behind | ⟨queued, granted⟩
    · rw [resend] at behind; cases behind
    · rcases first with none | none
      · rw [none] at queued; cases queued
      · rw [none] at granted; cases granted

variable (able : s.canSend l)
include able

theorem State.sendStart_guard (ready : isNewer (s.lane l).ldu.s (s.lane l).ldu.r = true
    ∨ (isNewer (s.lane l).ldu.c (s.lane l).ldu.s = true ∧ isNewer (s.lane l).ldu.g (s.lane l).ldu.s = true)) :
    ¬(s.trunk.outbound.isSome || s.resetInExecution || !s.eligible l) = true := by
  obtain ⟨wire, reset, state, up⟩ := able
  have eligible : s.eligible l = true := (s.eligible_iff l).mpr ⟨state, up, ready⟩
  simp [wire, reset, eligible]

theorem State.sendStartAt_of_resend (behind : isNewer (s.lane l).ldu.s (s.lane l).ldu.r = true) {b : Bundle}
    (retained : (s.lane l).ldu.retention[distance (s.lane l).ldu.a (s.lane l).ldu.r]? = some b) :
    s.sendStartAt l = some ((s.setLane l ((s.lane l).resend (distance (s.lane l).ldu.a (s.lane l).ldu.r) b)).startBundle l
      (s.lane l).ldu.r b.resent) := by
  have waiting : (s.lane l).ldu.resendWaiting = true := behind
  unfold State.sendStartAt
  dsimp only
  rw [if_neg (State.sendStart_guard able (.inl behind)), if_pos waiting, retained]

theorem State.sendStartAt_of_first (equal : (s.lane l).ldu.r = (s.lane l).ldu.s)
    (queued : isNewer (s.lane l).ldu.c (s.lane l).ldu.s = true) (granted : isNewer (s.lane l).ldu.g (s.lane l).ldu.s = true)
    {b : Bundle} {rest : List Bundle} (ready : (s.lane l).ldu.ready = b :: rest) :
    s.sendStartAt l = some ((s.setLane l ((s.lane l).firstSend l s.trunk.linkUp s.deviceTime b rest)).startBundle l
      (s.lane l).ldu.s b) := by
  have waiting : (s.lane l).ldu.resendWaiting = false := by
    unfold Ldu.resendWaiting
    rw [equal, isNewer_self]
  unfold State.sendStartAt
  dsimp only
  rw [if_neg (State.sendStart_guard able (.inr ⟨queued, granted⟩)), if_neg (by simp [waiting]), if_pos equal, ready]

end

theorem Lane.completePending_of_room {l : LaneId} {ln : Lane} (room : ln.ldu.ready.length < 32) :
    ln.completePending l = match ln.asm.pendingB with | none => ln | some p => ln.handOff l p := by
  unfold Lane.completePending
  cases ln.asm.pendingB with
  | none => rfl
  | some p => exact if_pos room

/-- A first send at a lane in service with the link UP: the timer starts for the first retained bundle (R126, R130). -/
theorem Lane.firstSend_eq {l : LaneId} {now : Word} {ln : Lane} {b : Bundle} {rest : List Bundle} {sent : Lane}
    (state : ln.ldu.state = .open ∨ ln.ldu.state = .draining) (room : rest.length < 32)
    (hsent : sent = { ln with ldu := { ln.ldu with
        ready := rest
        retention := ln.ldu.retention ++ [{ b with state := .sent }]
        s := ln.ldu.s + 1
        r := ln.ldu.r + 1
        timer := if ln.ldu.retention = [] then
          .running (now + BitVec.ofNat 32 (1000 * ln.ldu.config.timeoutMs)) false else ln.ldu.timer
        counters := { ln.ldu.counters with bundlesSent := satInc ln.ldu.counters.bundlesSent } } }) :
    ln.firstSend l true now b rest = match ln.asm.pendingB with | none => sent | some p => sent.handOff l p := by
  have started : ln.firstSend l true now b rest = sent.completePending l := by
    unfold Lane.firstSend
    dsimp only
    rw [hsent]
    by_cases first : ln.ldu.retention = []
    · rw [if_pos first, if_pos (List.isEmpty_iff.mpr first), Lane.startTimer_eq, if_pos (by simp [state])]
    · rw [if_neg first, if_neg fun none => first (List.isEmpty_iff.mp none)]
  rw [started, Lane.completePending_of_room (by rw [hsent]; exact room), hsent]

/-- Settles O34: the request is taken, and the lane resends, sends for the first time or answers none. -/
theorem sendStartSendsOneBundle : Obligations.SendStartSendsOneBundle := by
  intro s l s0 ln able running request hln hs0 hable
  subst hln hs0
  have same : able ↔ ({ s with trunk := { s.trunk with request := .none } } : State).canSend l := by rw [hable]; rfl
  rw [exec_sendStart, running_of_resetN _ running]
  refine ⟨fun refused => ?_, fun ready behind b retained b' hb' => ?_, fun ready equal queued granted b rest hready room sent hsent => ?_⟩
  · rw [State.takeSendStart_of_none request (State.sendStartAt_of_refused (refused.imp_left fun h => fun c => h (same.mpr c)))]
  · rw [State.takeSendStart_of_some request (State.sendStartAt_of_resend (same.mp ready) (by exact behind) (by exact retained)), hb']
    rfl
  · have sending := same.mp ready
    obtain ⟨-, -, state, up⟩ := id sending
    have first : (s.lane l).firstSend l s.trunk.linkUp s.deviceTime b rest = _ :=
      (congrArg (fun up => (s.lane l).firstSend l up s.deviceTime b rest) up).trans (Lane.firstSend_eq state room hsent)
    rw [State.takeSendStart_of_some request (State.sendStartAt_of_first sending (by exact equal) (by exact queued) (by exact granted)
      (by exact hready))]
    exact congrArg (fun x => Host.Outcome.next (State.startBundle (({ s with trunk := { s.trunk with request := .none } } : State).setLane l x)
      l (s.lane l).ldu.s b)) first

/-! ## RETRANSMIT_TIMER_EXPIRY (R130, R131) -/

theorem Lane.mayRun_eq_true (up : Bool) (ln : Lane) : ln.mayRun up = true ↔
    up = true ∧ (ln.ldu.state = .open ∨ ln.ldu.state = .draining) ∧ ln.ldu.retention ≠ [] := by
  simp [Lane.mayRun, and_assoc]

section
variable {ln : Lane} (up : Bool) (now : Word)

theorem Lane.expire_of_limit (limit : ln.ldu.retry + 1 ≤ ln.ldu.config.retryLimit) (run : ln.mayRun up = true) :
    ln.expire up now = ({ ln with ldu := { ln.ldu with
      retry := ln.ldu.retry + 1
      r := ln.ldu.a
      timer := .running (now + BitVec.ofNat 32 (1000 * ln.ldu.config.timeoutMs)) false
      counters := { ln.ldu.counters with retransmitExpiries := satInc ln.ldu.counters.retransmitExpiries } } }, false) := by
  unfold Lane.expire
  dsimp only
  rw [if_pos limit, Lane.startTimer_eq, if_pos ((Lane.mayRun_eq_true up ln).mp run)]

theorem Lane.expire_of_above (above : ln.ldu.config.retryLimit < ln.ldu.retry + 1) :
    ln.expire up now = ({ ln with ldu := { ln.ldu with
      retry := ln.ldu.retry + 1
      state := .stalled
      timer := .stopped
      drainRequested := ln.ldu.drainRequested || (ln.ldu.state == .draining)
      counters := { ln.ldu.counters with
        retransmitExpiries := satInc ln.ldu.counters.retransmitExpiries
        stalls := satInc ln.ldu.counters.stalls } } }, true) :=
  if_neg (Nat.not_le.mpr above)

end

theorem State.retransmitExpiry_of_due {s : State} {l : LaneId} {x : Lane} {stalled : Bool}
    (due : (s.lane l).ldu.timer.due s.deviceTime = true) (h : (s.lane l).expire s.trunk.linkUp s.deviceTime = (x, stalled)) :
    s.retransmitExpiry l = (if stalled then (s.setLane l x).notify .laneStalled l else s.setLane l x).arbitrate := by
  unfold State.retransmitExpiry
  rw [if_pos due, h]

/-- Settles O35: an expiry within the limit rewinds and restarts, one above it stalls the lane. -/
theorem retransmitExpiryRewindsOrStalls : Obligations.RetransmitExpiryRewindsOrStalls := by
  refine ⟨Lane.mayRun_eq_true, fun s l ln running hln => ?_⟩
  subst hln
  rw [exec_retransmitTimerExpiry, onLane_of_resetN running]
  refine ⟨fun e reached timer due => ⟨fun limit run => ?_, fun above => ?_⟩, fun quiet => ?_⟩
  · rw [State.retransmitExpiry_of_due (Timer.due_of_reached timer due) (Lane.expire_of_limit _ _ limit run)]
    rfl
  · rw [State.retransmitExpiry_of_due (Timer.due_of_reached timer due) (Lane.expire_of_above _ _ above)]
    rfl
  · unfold State.retransmitExpiry
    rw [if_neg (by simp [Timer.not_due quiet])]

/-! ## Lane commands -/

section
variable (s : State) (c : Command) {lane : Byte}

theorem State.onCommandLane_of_badRange (h : 16 ≤ lane.toNat) (f : LaneId → State) : s.onCommandLane c lane f = s.finish c .badRange [] := by
  unfold State.onCommandLane
  rw [laneOf_none h]

theorem State.onCommandLane_eq {l : LaneId} (named : lane.toNat = l.val) (f : LaneId → State) : s.onCommandLane c lane f = f l := by
  unfold State.onCommandLane
  rw [laneOf_eq named]

end

/-! ## LANE_FLUSH (R106) -/

section
variable {s : State} (c : Command) {lane : Byte} {l : LaneId}

theorem State.laneFlush_of_disabled (named : lane.toNat = l.val) (h : (s.lane l).ldu.state = .disabled) :
    s.laneFlush c lane = s.finish c .laneDisabled [] := by
  unfold State.laneFlush
  rw [State.onCommandLane_eq s c named, h]

theorem State.laneFlush_of_service (named : lane.toNat = l.val) (h : (s.lane l).ldu.state ≠ .disabled) :
    s.laneFlush c lane = (s.flushLane c l).arbitrate := by
  unfold State.laneFlush
  rw [State.onCommandLane_eq s c named]
  split
  · exact absurd ‹_› h
  all_goals rfl

variable {ln : Lane} (hln : ln = (s.lane l).settle l)
include hln

theorem State.flushLane_of_pending (h : ln.asm.pendingB ≠ none) : s.flushLane c l = (s.setLane l ln).finish c .already [] := by
  unfold State.flushLane
  dsimp only
  rw [State.lane_setLane, ← hln]
  exact if_pos (Option.isSome_iff_ne_none.mpr h)

theorem State.flushLane_of_empty (pending : ln.asm.pendingB = none) (h : ln.openRecords = []) :
    s.flushLane c l = (s.setLane l ln).finish c .empty [] := by
  unfold State.flushLane
  dsimp only
  rw [State.lane_setLane, ← hln, if_neg (by simp [Lane.closePending, pending]), if_pos h]

theorem State.flushLane_of_records (pending : ln.asm.pendingB = none) (h : ln.openRecords ≠ []) :
    s.flushLane c l = (s.setLane l (ln.closeNow l s.deviceTime .flush)).finish c .ok
      (ln.flushResult (ln.closeNow l s.deviceTime .flush)) := by
  unfold State.flushLane
  dsimp only
  rw [State.lane_setLane, ← hln, if_neg (by simp [Lane.closePending, pending]), if_neg h, State.setLane_setLane]
  rfl

end

theorem Lane.closeNow_of_records {l : LaneId} {now : Word} {reason : CloseReason} {ln : Lane} {b : Bundle}
    (opened : ln.asm.openB = some b) (records : b.records ≠ []) (unclosed : b.closeReason = none) :
    ln.closeNow l now reason = (ln.close now reason).handOff l { b with closeTime := some now, closeReason := some reason } := by
  have offered : (ln.close now reason).offered = some { b with closeTime := some now, closeReason := some reason } := by
    rw [Lane.close_of_records now reason opened records unclosed]
    rfl
  exact Lane.settle_of_offered l offered

/-- What a flush answers: the handoff taken with the sequence C, or deferred (R106). -/
theorem Lane.flushResult_handOff (l : LaneId) (before ln : Lane) (b : Bundle) (c : before.ldu.c = ln.ldu.c) :
    before.flushResult (ln.handOff l b) = if ln.ldu.ready.length < 32 then [0x00, 0x01] ++ enc16 ln.ldu.c else [0x01, 0x00] := by
  unfold Lane.flushResult
  by_cases room : ln.ldu.ready.length < 32
  · rw [if_pos room, Lane.handOff_of_room l room, c]
    rfl
  · rw [if_neg room, Lane.handOff_of_full l (Nat.not_lt.mp room)]
    rfl

/-- Settles O36: the range, the state of the lane, and the bundle that a flush closes. -/
theorem laneFlushByItsTable : Obligations.LaneFlushByItsTable := by
  intro s c rest lane hb he params
  rw [exec_laneFlush_begins hb he (by rw [params]; rfl)]
  refine ⟨fun bad => ?_, fun l ln named hln => ⟨fun disabled => ?_, fun service => ⟨fun pending => ?_, fun pending empty => ?_,
    fun pending b opened records unclosed closed hclosed => ?_⟩⟩⟩
  · unfold State.laneFlush
    rw [State.onCommandLane_of_badRange _ c bad, State.dequeued_finish]
  · rw [State.laneFlush_of_disabled (s := s.dequeued rest) c named disabled, State.dequeued_finish]
  all_goals rw [State.laneFlush_of_service (s := s.dequeued rest) c named service]
  · rw [State.flushLane_of_pending (s := s.dequeued rest) c hln pending]
    rfl
  · rw [State.flushLane_of_empty (s := s.dequeued rest) c hln pending (Lane.openRecords_eq_nil empty)]
    rfl
  · have filled : ln.openRecords ≠ [] := by
      rw [Lane.openRecords_of_open opened]
      exact records
    have closing : ln.closeNow l s.deviceTime .flush = (ln.close s.deviceTime .flush).handOff l closed := by
      rw [Lane.closeNow_of_records opened records unclosed, hclosed]
    have kept : (ln.close s.deviceTime .flush).ldu = ln.ldu := Lane.close_ldu ..
    rw [State.flushLane_of_records (s := s.dequeued rest) c hln pending filled, show (s.dequeued rest).deviceTime = s.deviceTime from rfl,
      closing, Lane.flushResult_handOff l ln _ closed (by rw [kept]), kept]
    rfl

/-! ## LANE_CONFIG (R136) -/

theorem OptionalCount.lt {bytes : List Byte} {value : Option Nat} (h : OptionalCount bytes value) {x : Nat} (present : value = some x) :
    x < 65536 := by
  rcases h with ⟨-, rfl⟩ | ⟨hi, lo, -, rfl⟩
  · cases present
  · cases present
    have hhi := hi.isLt
    have hlo := lo.isLt
    omega

theorem inRange_iff {x : Option Nat} {ok : Nat → Bool} : inRange x ok = true ↔ ∀ v, x = some v → ok v = true := by
  cases x <;> simp [inRange]

/-- The seven ranges of R136; the two time limits take any two-byte value. -/
theorem LaneConfigParams.inRanges_iff {a : LaneConfigParams} (idle : ∀ x, a.idleLimit = some x → x < 65536)
    (age : ∀ x, a.ageLimit = some x → x < 65536) : a.inRanges = true ↔
    (∀ x, a.window = some x → 1 ≤ x ∧ x ≤ 32) ∧ (∀ x, a.retryLimit = some x → x ≤ 15) ∧ (∀ x, a.timeoutMs = some x → 1 ≤ x ∧ x ≤ 1000)
      ∧ (∀ x, a.maxBytes = some x → 128 ≤ x ∧ x ≤ 4096 ∧ x % 64 = 0) ∧ (∀ x, a.recordLimit = some x → 1 ≤ x ∧ x ≤ 255) := by
  simp only [LaneConfigParams.inRanges, Bool.and_eq_true, inRange_iff, decide_eq_true_iff]
  constructor
  · rintro ⟨⟨⟨⟨⟨⟨window, retry⟩, timeout⟩, bytes⟩, records⟩, -⟩, -⟩
    exact ⟨window, retry, timeout, bytes, records⟩
  · rintro ⟨window, retry, timeout, bytes, records⟩
    exact ⟨⟨⟨⟨⟨⟨window, retry⟩, timeout⟩, bytes⟩, records⟩, fun v hv => Nat.le_of_lt_succ (idle v hv)⟩,
      fun v hv => Nat.le_of_lt_succ (age v hv)⟩

theorem readWhole_laneConfig {lane : Byte} {w r t m n i g : Option Nat} {wb rb tb mb nb ib gb : List Byte} (hw : OptionalCount wb w)
    (hr : OptionalCount rb r) (ht : OptionalCount tb t) (hm : OptionalCount mb m) (hn : OptionalCount nb n) (hi : OptionalCount ib i)
    (hg : OptionalCount gb g) : readWhole readLaneConfig ([lane] ++ wb ++ rb ++ tb ++ mb ++ nb ++ ib ++ gb) =
      some ⟨lane, w, r, t, m, n, i, g⟩ := by
  have last := readOpt_count hg []
  rw [List.append_nil] at last
  simp [readWhole, readLaneConfig, read8, readOpt_count hw, readOpt_count hr, readOpt_count ht, readOpt_count hm, readOpt_count hn,
    readOpt_count hi, last]

section
variable {s : State} (c : Command) {a : LaneConfigParams} {l : LaneId} (named : a.lane.toNat = l.val)
include named

theorem State.laneConfig_of_busy (h : (s.lane l).ldu.state = .open ∨ (s.lane l).ldu.state = .draining) :
    s.laneConfig c a = s.finish c .laneBusy [] := by
  unfold State.laneConfig
  rw [State.onCommandLane_eq s c named]
  rcases h with h | h <;> rw [h]

theorem State.laneConfig_of_stalled (h : (s.lane l).ldu.state = .stalled) : s.laneConfig c a = s.finish c .laneStalled [] := by
  unfold State.laneConfig
  rw [State.onCommandLane_eq s c named, h]

theorem State.laneConfig_of_disabled (h : (s.lane l).ldu.state = .disabled) : s.laneConfig c a =
    if a.inRanges then (s.setLane l ((s.lane l).configured a)).finish c .ok (((s.lane l).configured a).configResult l)
    else s.finish c .badRange [] := by
  unfold State.laneConfig
  rw [State.onCommandLane_eq s c named, h]

end

/-- Settles O37: the range of the lane, its state, the ranges of the values, and the values it takes. -/
theorem laneConfigSetsADisabledLane : Obligations.LaneConfigSetsADisabledLane := by
  intro s c rest lane w r t m n i g wb rb tb mb nb ib gb hb he hw hr ht hm hn hi hg params ok hok
  have ranges := LaneConfigParams.inRanges_iff (a := ⟨lane, w, r, t, m, n, i, g⟩) (fun _ => hi.lt) (fun _ => hg.lt)
  rw [exec_laneConfig_begins hb he (by rw [params]; exact readWhole_laneConfig hw hr ht hm hn hi hg)]
  refine ⟨fun bad => ?_, fun l ln asm ldu named hln hasm hldu => ⟨fun busy => ?_, fun stalled => ?_, fun disabled bad => ?_,
    fun disabled good => ?_⟩⟩
  · unfold State.laneConfig
    rw [State.onCommandLane_of_badRange _ c (by exact bad), State.dequeued_finish]
  all_goals subst hln
  · rw [State.laneConfig_of_busy (s := s.dequeued rest) c (by exact named) busy, State.dequeued_finish]
  · rw [State.laneConfig_of_stalled (s := s.dequeued rest) c (by exact named) stalled, State.dequeued_finish]
  · rw [State.laneConfig_of_disabled (s := s.dequeued rest) c (by exact named) disabled,
      if_neg fun range => bad (hok ▸ ranges.mp range), State.dequeued_finish]
  · rw [State.laneConfig_of_disabled (s := s.dequeued rest) c (by exact named) disabled, if_pos (ranges.mpr (hok ▸ good))]
    subst hasm hldu
    rw [Lane.configResult, enc8_of_toNat named]
    rfl

/-! ## LANE_START and LANE_STOP (R137, R138) -/

section
variable {s : State} (c : Command) {lane : Byte} {l : LaneId} (named : lane.toNat = l.val)
include named

theorem State.laneStart_eq : s.laneStart c lane = match (s.lane l).ldu.state with
    | .disabled => (s.setLane l ((s.lane l).started l)).finish c .ok (enc8 LaneState.open.code)
    | .open => s.finish c .laneBusy (enc8 LaneState.open.code)
    | .draining => s.finish c .laneBusy (enc8 LaneState.draining.code)
    | .stalled => s.finish c .laneStalled (enc8 LaneState.stalled.code) :=
  State.onCommandLane_eq s c named _

theorem State.laneStop_eq : s.laneStop c lane = match (s.lane l).ldu.state with
    | .disabled => s.finish c .laneDisabled (enc8 LaneState.disabled.code)
    | .draining => s.finish c .already (enc8 LaneState.draining.code)
    | .open => ((s.beginDrain l).finish c .ok (enc8 ((s.beginDrain l).lane l).ldu.state.code)).arbitrate
    | .stalled =>
      if (s.lane l).ldu.drainRequested then s.finish c .already (enc8 LaneState.stalled.code)
      else (s.setLane l { s.lane l with ldu := { (s.lane l).ldu with drainRequested := true } }).finish c .ok
        (enc8 LaneState.stalled.code) :=
  State.onCommandLane_eq s c named _

end

theorem Lane.handOff_not_drained (l : LaneId) (ln : Lane) (b : Bundle) : (ln.handOff l b).drained = false := by
  refine Lane.drained_eq_false ?_
  by_cases room : ln.ldu.ready.length < 32
  · rw [Lane.handOff_of_room l room]
    exact .inr (.inr (.inr (.inl (by simp))))
  · rw [Lane.handOff_of_full l (Nat.not_lt.mp room)]
    exact .inr (.inr (.inl (by simp)))

section
variable {s : State} {l : LaneId} {x : Lane} (h : (s.lane l).enterDraining l s.deviceTime = x)
include h

theorem State.beginDrain_of_not_drained (busy : x.drained = false) : s.beginDrain l = s.setLane l x := by
  unfold State.beginDrain
  rw [h, State.drainCheck_of_not_drained (by rw [State.lane_setLane]; exact busy)]

theorem State.beginDrain_of_drained (drained : x.drained = true) (opened : ∀ b, x.asm.openB = some b → b.cells = 0 ∧ b.seq = none)
    (pending : x.asm.pendingB = none) (ready : x.ldu.ready = []) (retained : x.ldu.retention = []) :
    s.beginDrain l = (s.setLane l x.disabled).notify .laneDrained l := by
  have lane : (s.setLane l x).lane l = x := s.lane_setLane l x
  unfold State.beginDrain
  rw [h, State.drainCheck_of_drained (by rw [lane]; exact drained), State.disableLane_of_empty (by rw [lane]; exact opened)
    (by rw [lane]; exact pending) (by rw [lane]; exact ready) (by rw [lane]; exact retained), lane, State.setLane_setLane]

end

/-- Settles O38: both tables by the state of the lane, and the drain of an open one by what it holds. -/
theorem laneStartAndStopByTheirTables : Obligations.LaneStartAndStopByTheirTables := by
  refine fun s c rest lane he params => ⟨fun hb => ?_, fun hb => ?_⟩
  · rw [exec_laneStart_begins hb he (by rw [params]; rfl)]
    refine ⟨fun bad => ?_, fun l ln named hln => ?_⟩
    · unfold State.laneStart
      rw [State.onCommandLane_of_badRange _ c bad, State.dequeued_finish]
    · subst hln
      rw [State.laneStart_eq c named, show (s.dequeued rest).lane l = s.lane l from rfl]
      exact ⟨fun state => by rw [state]; rfl, fun state => by rw [state]; rfl, fun state => by rw [state]; rfl,
        fun state => by rw [state]; rfl⟩
  · rw [exec_laneStop_begins hb he (by rw [params]; rfl)]
    refine ⟨fun bad => ?_, fun l ln st named hln hst => ?_⟩
    · unfold State.laneStop
      rw [State.onCommandLane_of_badRange _ c bad, State.dequeued_finish]
    · subst hln
      rw [State.laneStop_eq c named, show (s.dequeued rest).lane l = s.lane l from rfl]
      refine ⟨fun state => by rw [state]; rfl, fun state => by rw [state]; rfl, fun state flag => ?_, fun state flag => ?_,
        fun state b opened records unclosed closed hclosed => ?_, fun state empty => ⟨fun busy => ?_, fun pending ready retained => ?_⟩⟩
      · rw [state, flag]
        rfl
      · rw [state, flag]
        rfl
      all_goals
        rw [state]
        dsimp only
        have draining : ({ st with ldu := { st.ldu with state := .draining } } : Lane) =
            { (s.lane l).settle l with ldu := { ((s.lane l).settle l).ldu with state := .draining } } := by rw [hst]
      · have enter : ((s.dequeued rest).lane l).enterDraining l (s.dequeued rest).deviceTime =
            (({ st with ldu := { st.ldu with state := .draining } } : Lane).close s.deviceTime .drain).handOff l closed := by
          rw [hclosed]
          exact Lane.enterDraining_of_records l s.deviceTime draining opened records unclosed
        rw [State.beginDrain_of_not_drained enter (Lane.handOff_not_drained ..), State.lane_setLane, Lane.handOff_ldu, Lane.close_ldu]
        rfl
      all_goals
        have enter : ((s.dequeued rest).lane l).enterDraining l (s.dequeued rest).deviceTime =
            { st with ldu := { st.ldu with state := .draining } } :=
          Lane.enterDraining_of_empty l s.deviceTime draining fun b opened => by
            obtain ⟨records, -, -, unclosed⟩ := empty b opened
            exact ⟨records, unclosed⟩
      · rw [State.beginDrain_of_not_drained enter (Lane.drained_eq_false (.inr (.inr busy))), State.lane_setLane]
        rfl
      · rw [State.beginDrain_of_drained enter
          (Lane.drained_eq_true rfl (Lane.openRecords_eq_nil fun b opened => (empty b opened).1) pending ready retained)
          (fun b opened => by
            obtain ⟨-, cells, unnumbered, -⟩ := empty b opened
            exact ⟨cells, unnumbered⟩) pending ready retained,
          State.notify_lane, State.lane_setLane]
        rfl

/-! ## LANE_RESET (R139, R161) -/

/-- The end of a bundle acts on the pool and the wire alone. -/
theorem State.discard_setLane (s : State) (l k : LaneId) (x : Lane) (b : Bundle) :
    (s.setLane k x).discard l b = (s.discard l b).setLane k x := by
  have freed : ∀ n, (s.setLane k x).freeCells n = (s.freeCells n).setLane k x := fun n => by
    unfold State.freeCells
    split <;> rfl
  unfold State.discard
  rw [State.setLane_trunk]
  split
  · split
    · rfl
    · exact freed _
  · exact freed _

theorem State.discard_dequeued (s : State) (l : LaneId) (rest : List Command) (b : Bundle) :
    (s.dequeued rest).discard l b = (s.discard l b).dequeued rest := by
  have freed : ∀ n, (s.dequeued rest).freeCells n = (s.freeCells n).dequeued rest := fun n => by
    unfold State.freeCells
    split <;> rfl
  unfold State.discard
  rw [show (s.dequeued rest).trunk = s.trunk from rfl]
  split
  · split
    · rfl
    · exact freed _
  · exact freed _

/-- What one discard leaves in place, the discards of a list leave in place. -/
theorem State.discards_comm {l : LaneId} {f : State → State} (h : ∀ s b, (f s).discard l b = f (s.discard l b)) (bs : List Bundle)
    (s : State) : bs.foldl (State.discard l) (f s) = f (bs.foldl (State.discard l) s) := by
  induction bs generalizing s with
  | nil => rfl
  | cons b bs ih => rw [List.foldl_cons, List.foldl_cons, h, ih]

section
variable {s : State} {l : LaneId}

theorem State.cuts_eq_true {carried : WireBundle} {bytes : List Byte}
    (wire : s.trunk.outbound = some (.bundle l .sending carried bytes)) : s.cuts l = true := by
  unfold State.cuts Trunk.sendingBundle
  rw [wire]
  exact beq_self_eq_true l

theorem State.cuts_eq_false (h : ∀ carried bytes, s.trunk.outbound ≠ some (.bundle l .sending carried bytes)) : s.cuts l = false := by
  unfold State.cuts Trunk.sendingBundle
  split
  · rename_i l' carried bytes wire
    exact beq_eq_false_iff_ne.mpr fun same => h carried bytes (same ▸ wire)
  · rfl

theorem State.cutFrame_of_sending {carried : WireBundle} {bytes : List Byte}
    (wire : s.trunk.outbound = some (.bundle l .sending carried bytes)) : s.cutFrame =
      ({ s with trunk := { s.trunk with outbound := some (.bundle l .cutting carried bytes) } } : State).setLane l { s.lane l with
        ldu := { (s.lane l).ldu with counters := { (s.lane l).ldu.counters with aborts := satInc (s.lane l).ldu.counters.aborts } } } := by
  unfold State.cutFrame
  rw [wire]

/-- A lane whose own record has just been set goes to DISABLED with the bundles of that record discarded. -/
theorem State.disableLane_setLane (s : State) (l : LaneId) (x : Lane) :
    (s.setLane l x).disableLane l = (x.bundles.foldl (State.discard l) s).setLane l x.disabled := by
  unfold State.disableLane
  dsimp only
  rw [State.lane_setLane, State.discards_comm fun t b => t.discard_setLane l l x b, State.setLane_setLane]

theorem State.resetLane_of_cut {carried : WireBundle} {bytes : List Byte}
    (wire : s.trunk.outbound = some (.bundle l .sending carried bytes)) : s.resetLane l =
      ((s.lane l).bundles.foldl (State.discard l)
        { s with trunk := { s.trunk with outbound := some (.bundle l .cutting carried bytes) } }).setLane l
      ({ s.lane l with ldu := { (s.lane l).ldu with
        counters := { (s.lane l).ldu.counters with aborts := satInc (s.lane l).ldu.counters.aborts } } } : Lane).disabled := by
  unfold State.resetLane
  rw [if_pos (State.cuts_eq_true wire), State.cutFrame_of_sending wire, State.disableLane_setLane]
  rfl

theorem State.resetLane_of_uncut (h : ∀ carried bytes, s.trunk.outbound ≠ some (.bundle l .sending carried bytes)) :
    s.resetLane l = ((s.lane l).bundles.foldl (State.discard l) s).setLane l (s.lane l).disabled := by
  unfold State.resetLane
  rw [if_neg (by simp [State.cuts_eq_false h])]
  rfl

variable (c : Command) {lane : Byte} (named : lane.toNat = l.val)
include named

theorem State.laneReset_of_disabled (h : (s.lane l).ldu.state = .disabled) :
    s.laneReset c lane = s.finish c .ok [0x00, 0x00, 0x00, 0x00] := by
  unfold State.laneReset
  rw [State.onCommandLane_eq s c named, h]
  rfl

theorem State.laneReset_of_service (h : (s.lane l).ldu.state ≠ .disabled) : s.laneReset c lane =
    (s.resetLane l).finish c .ok ([0x00] ++ encCount (s.lane l).discardCount ++ encFlag (s.cuts l)) := by
  unfold State.laneReset
  rw [State.onCommandLane_eq s c named]
  split
  · exact absurd ‹_› h
  all_goals rfl

end

/-- The open bundle of a lane holds no record. -/
theorem Lane.openRecords_eq_nil_iff (ln : Lane) : ln.openRecords = [] ↔ ∀ b, ln.asm.openB = some b → b.records = [] := by
  refine ⟨fun h b opened => ?_, Lane.openRecords_eq_nil⟩
  rw [Lane.openRecords_of_open opened] at h
  exact h

/-- Settles O39: a disabled lane stays, any other is reset, with its frame cut where it is being sent. -/
theorem laneResetDiscardsTheLane : Obligations.LaneResetDiscardsTheLane := by
  intro s c rest lane hb he params
  rw [exec_laneReset_begins hb he (by rw [params]; rfl)]
  refine ⟨fun bad => ?_, fun l ln named hln => ⟨fun disabled => ?_, fun service cut s0 aborts cases_ => ?_⟩⟩
  · unfold State.laneReset
    rw [State.onCommandLane_of_badRange _ c bad, State.dequeued_finish]
  all_goals subst hln
  · rw [State.laneReset_of_disabled (s := s.dequeued rest) c named disabled, State.dequeued_finish]
  · have count : (s.lane l).discardCount = (s.lane l).ldu.ready.length + (s.lane l).ldu.retention.length
        + (s.lane l).asm.pendingB.toList.length + (if ∀ b, (s.lane l).asm.openB = some b → b.records = [] then 0 else 1) := by
      unfold Lane.discardCount
      rw [if_congr (Lane.openRecords_eq_nil_iff _) rfl rfl]
    rw [State.laneReset_of_service (s := s.dequeued rest) c named service, show (s.dequeued rest).lane l = s.lane l from rfl, ← count]
    have dequeue : ∀ (t : State) (bs : List Bundle), bs.foldl (State.discard l) (t.dequeued rest) =
        (bs.foldl (State.discard l) t).dequeued rest := fun t bs => State.discards_comm (fun t b => t.discard_dequeued l rest b) bs t
    rcases cases_ with ⟨rfl, ⟨carried, bytes, wire, hs0⟩, habort⟩ | ⟨rfl, free, hs0, habort⟩
    · have folded : ((s.dequeued rest).lane l).bundles.foldl (State.discard l)
          { s.dequeued rest with trunk := { (s.dequeued rest).trunk with outbound := some (.bundle l .cutting carried bytes) } } =
          ((s.lane l).bundles.foldl (State.discard l) s0).dequeued rest := by
        rw [← dequeue, hs0]
        rfl
      rw [State.resetLane_of_cut (s := s.dequeued rest) wire, State.cuts_eq_true (s := s.dequeued rest) wire, habort, folded]
      rfl
    · have folded : ((s.dequeued rest).lane l).bundles.foldl (State.discard l) (s.dequeued rest) =
          ((s.lane l).bundles.foldl (State.discard l) s0).dequeued rest := by
        rw [← dequeue, hs0]
        rfl
      rw [State.resetLane_of_uncut (s := s.dequeued rest) free, State.cuts_eq_false (s := s.dequeued rest) free, habort, folded]
      rfl

end Sys2Proof.Machine

/-! The trunk: the link, the inbound frames, the arbiter and the ends of outbound frames. Proofs of O40 to O43. -/

namespace Sys2Proof.Machine

/-! ## The wire that is freed (R77, R160, R162) -/

section
variable {s : State}

theorem State.clearWire_of_releasing {l : LaneId} {mode : TxMode} {b : Bundle} {bytes : List Byte}
    (wire : s.trunk.outbound = some (.bundle l mode (.releasing b) bytes)) :
    s.clearWire = ({ s with trunk := { s.trunk with outbound := none } } : State).freeCells b.cells := by
  unfold State.clearWire
  rw [wire]

theorem State.clearWire_of_other (h : ∀ l mode b bytes, s.trunk.outbound ≠ some (.bundle l mode (.releasing b) bytes)) :
    s.clearWire = { s with trunk := { s.trunk with outbound := none } } := by
  unfold State.clearWire
  split
  · exact absurd ‹_› (h _ _ _ _)
  · rfl

/-- A freeing looks at the pool alone. -/
theorem State.freeCells_pool {t : State} (h : t.pool = s.pool) (n : Nat) : (t.freeCells n).pool = (s.freeCells n).pool := by
  unfold State.freeCells
  split
  · exact h
  · dsimp only
    rw [h]

end

/-! ## LINK_UP and LINK_DOWN (R141, R142, R148, R149) -/

section
variable {s : State}

theorem State.gainLock_of_up (h : s.trunk.linkUp = true) : s.gainLock = s := if_pos h

theorem State.gainLock_of_down (h : s.trunk.linkUp = false) : s.gainLock =
    ({ s with trunk := { s.trunk with linkUp := true }, lanes := s.lanes.map (Lane.linkUp s.deviceTime) } : State).arbitrate :=
  if_neg (by simp [h])

theorem State.loseLock_of_down (h : s.trunk.linkUp = false) : s.loseLock = s := if_neg (by simp [h])

/-- The state at a loss of lock, block by block. -/
theorem State.lockLost_eq (s : State) : s.lockLost = { s with
    lanes := s.lanes.map Lane.linkDown, pool := s.clearWire.pool, mu := s.mu.linkDown.cutEnded
    trunk := { s.trunk with
      linkUp := false, inbound := none, outbound := none, responses := []
      counters := { s.trunk.counters with linkLosses := satInc s.trunk.counters.linkLosses } } } := by
  unfold State.lockLost
  rw [s.clearWire_frame, s.clearWire_trunk]
  rfl

/-- The Management Unit after a loss of lock: a command whose response waited for room has ended. -/
def State.muAfterLoss (s : State) : Mu :=
  if s.trunk.responses.length < 8 then s.mu.linkDown.cutEnded
  else match s.mu.linkDown.cutEnded.readyResponse with
    | some (c, r) => { s.mu.linkDown.cutEnded with
        executing := none, last := some ⟨c.epoch, c.seq, r⟩, commandsDone := satInc s.mu.linkDown.cutEnded.commandsDone }
    | none => s.mu.linkDown.cutEnded

theorem State.loseLock_of_up (h : s.trunk.linkUp = true) : s.loseLock = { s.lockLost with mu := s.muAfterLoss } := by
  have lost : s.lockLost.mu = s.mu.linkDown.cutEnded := by rw [s.lockLost_eq]
  have down : s.lockLost.trunk.linkUp = false := by rw [s.lockLost_eq]
  have same : s.loseLock = if s.trunk.responses.length < 8 then s.lockLost else
      match s.lockLost.mu.readyResponse with
      | some (c, r) => s.lockLost.endCommand c r
      | none => s.lockLost := (if_pos h).trans rfl
  rw [same]
  unfold State.muAfterLoss
  split
  · rw [← lost]
  · rw [lost]
    split
    · unfold State.endCommand Trunk.placeResponse
      rw [down, lost]
      rfl
    · rw [← lost]

end

section
variable {m : Mu}

theorem Mu.cutEnded_of_cutting {c : Command} {aborted : Bool} (h : m.executing = some ⟨c, .cutting aborted⟩) :
    m.cutEnded = { m with executing := some ⟨c, .phase4Due aborted⟩ } := by
  unfold Mu.cutEnded Mu.setProgress
  rw [h]
  rfl

theorem Mu.cutEnded_of_other (h : ∀ c aborted, m.executing ≠ some ⟨c, .cutting aborted⟩) : m.cutEnded = m := by
  unfold Mu.cutEnded
  split
  · exact absurd ‹_› (h _ _)
  · rfl

theorem Mu.readyResponse_eq {c : Command} {r : Response} (h : m.executing = some ⟨c, .done r⟩ ∨ m.executing = some ⟨c, .resetDone r⟩) :
    m.readyResponse = some (c, r) := by
  unfold Mu.readyResponse
  rcases h with h | h <;> rw [h]

theorem Mu.readyResponse_none (h : ∀ c r, m.executing ≠ some ⟨c, .done r⟩ ∧ m.executing ≠ some ⟨c, .resetDone r⟩) :
    m.readyResponse = none := by
  unfold Mu.readyResponse
  split
  · exact absurd ‹_› (h _ _).1
  · exact absurd ‹_› (h _ _).2
  · rfl

end

/-- Settles O40: the blocks at a gain and at a loss of lock, and the command in execution by its progress. -/
theorem linkChangesReachEveryBlock : Obligations.LinkChangesReachEveryBlock := by
  refine ⟨fun s running => ⟨fun up => ?_, fun down => ⟨s.lanes.map (Lane.linkUp s.deviceTime), ?_, fun l => ?_⟩⟩,
    fun s running => ⟨fun down => ?_, fun up => ⟨s.lanes.map Lane.linkDown, s.clearWire.pool, s.muAfterLoss, ?_, fun l => ?_,
      fun l mode b bytes wire => ?_, fun free => ?_, fun m hm => ?_⟩⟩⟩
  · rw [exec_linkUp, running_of_resetN _ running, State.gainLock_of_up up]
  · rw [exec_linkUp, running_of_resetN _ running, State.gainLock_of_down down]
  · have lane := Lane.startTimer_eq true s.deviceTime (s.lane l)
    refine (s.lane_map (Lane.linkUp s.deviceTime) (t := { s with lanes := s.lanes.map (Lane.linkUp s.deviceTime) }) rfl l).trans ?_
    unfold Lane.linkUp
    rw [lane]
    simp
  · rw [exec_linkDown, running_of_resetN _ running, State.loseLock_of_down down]
  · rw [exec_linkDown, running_of_resetN _ running, State.loseLock_of_up up, s.lockLost_eq]
  · exact s.lane_map Lane.linkDown (t := { s with lanes := s.lanes.map Lane.linkDown }) rfl l
  · rw [State.clearWire_of_releasing wire]
    exact State.freeCells_pool (by rfl) _
  · rw [State.clearWire_of_other free]
  · have linked : s.mu.linkDown = m := by rw [hm]; rfl
    have executing : m.executing = s.mu.executing := by rw [hm]
    unfold State.muAfterLoss
    rw [linked]
    have uncut (h : ∀ c aborted, s.mu.executing ≠ some ⟨c, .cutting aborted⟩) : m.cutEnded = m :=
      Mu.cutEnded_of_other fun c aborted => executing ▸ h c aborted
    refine ⟨fun c aborted cutting => ?_, fun c r ready full => ?_, fun c r ready room => ?_, fun other => ?_⟩
    · have ended := Mu.cutEnded_of_cutting (executing.trans cutting)
      have waits : m.cutEnded.readyResponse = none := by rw [ended]; rfl
      rw [waits, ended, ite_self]
    · have same : m.cutEnded = m := uncut fun c aborted => by rcases ready with h | h <;> simp [h]
      rw [same, if_neg (Nat.not_lt.mpr full), Mu.readyResponse_eq (executing ▸ ready)]
    · have same : m.cutEnded = m := uncut fun c aborted => by rcases ready with h | h <;> simp [h]
      rw [same, if_pos room]
    · have same : m.cutEnded = m := uncut fun c aborted => by
        rcases other with h | ⟨c, h | h | ⟨clear, left, result, h⟩ | ⟨a, h⟩⟩ <;> simp [h]
      have waits : m.readyResponse = none := Mu.readyResponse_none fun c r => by
        rw [executing]
        rcases other with h | ⟨c, h | h | ⟨clear, left, result, h⟩ | ⟨a, h⟩⟩ <;> simp [h]
      rw [same, waits, ite_self]

/-! ## Inbound frames (R151 to R155) -/

theorem Trunk.startInbound_eq (t : Trunk) : t.startInbound = if t.linkUp then { t with
    inbound := some (.receiving [])
    counters := { t.counters with inLengthErrors :=
      (if t.inbound = none then t.counters.inLengthErrors else satInc t.counters.inLengthErrors) } } else t := by
  unfold Trunk.startInbound
  cases t.inbound <;> rfl

/-- The bytes that a frame check covers, in a frame that ends with its check (R152). -/
theorem frameBody_append {body check : List Byte} (h : check.length = 4) : frameBody (body ++ check) = body := by
  unfold frameBody
  rw [List.length_append, h, Nat.add_sub_cancel, List.take_left]

theorem getElem?_frameBody {bytes : List Byte} {i : Nat} (h : i < bytes.length - 4) : (frameBody bytes)[i]? = bytes[i]? :=
  List.getElem?_take_of_lt h

/-- What a body of kind COMMAND with all its fixed fields carries. -/
theorem parseInbound_of_command {bytes params : List Byte} {u e3 e2 e1 e0 q1 q0 code p : Byte}
    (body : frameBody bytes = u :: 0x22 :: e3 :: e2 :: e1 :: e0 :: q1 :: q0 :: code :: p :: params) : parseInbound bytes =
      if bytes.length = 14 + p.toNat then some (.command ⟨be32 e3 e2 e1 e0, be16 q1 q0, code, params⟩) else none := by
  unfold parseInbound
  rw [body]
  exact if_neg (by decide)

/-- What a body of kind LANE_CONTROL with a count carries. -/
theorem parseInbound_of_control {bytes updates : List Byte} {u n : Byte} (body : frameBody bytes = u :: 0x21 :: n :: updates) :
    parseInbound bytes = if 1 ≤ n.toNat ∧ n.toNat ≤ 16 ∧ bytes.length = 7 + 8 * n.toNat then
      some (.laneControl (parseUpdates n.toNat updates)) else none := by
  unfold parseInbound
  rw [body]
  exact if_pos (by decide)

theorem parseInbound_command (unit : Byte) {c : Command} {check : List Byte} (hcheck : check.length = 4) (short : c.params.length < 256) :
    parseInbound ([unit, 0x22] ++ enc32 c.epoch ++ enc16 c.seq ++ [c.code] ++ enc8 c.params.length ++ c.params ++ check) =
      some (.command c) := by
  have length : (BitVec.ofNat 8 c.params.length).toNat = c.params.length := by
    rw [BitVec.toNat_ofNat, Nat.mod_eq_of_lt (by omega)]
  have total : ([unit, 0x22] ++ enc32 c.epoch ++ enc16 c.seq ++ [c.code] ++ enc8 c.params.length ++ c.params ++ check).length =
      14 + (BitVec.ofNat 8 c.params.length).toNat := by
    simp only [List.length_append, length, hcheck, enc32, enc16, enc8, List.length_cons, List.length_nil]
    omega
  have body := frameBody_append (body := [unit, 0x22] ++ enc32 c.epoch ++ enc16 c.seq ++ [c.code] ++ enc8 c.params.length ++ c.params) hcheck
  rw [parseInbound_of_command body, if_pos total, be32_of_enc32 c.epoch rfl, be16_of_enc16 c.seq rfl]
  rfl

/-- The bytes of a lane update (10.3). -/
abbrev RawFields := Byte × Byte × SeqNo × SeqNo × SeqNo

/-- The update that these fields name. -/
def RawFields.update (u : RawFields) : RawUpdate := ⟨u.1, u.2.2.1, u.2.2.2.1, if u.2.1.getLsbD 0 then some u.2.2.2.2 else none⟩

theorem parseUpdates_encode (us : List RawFields) : parseUpdates us.length
    (us.flatMap fun u => [u.1, u.2.1] ++ enc16 u.2.2.1 ++ enc16 u.2.2.2.1 ++ enc16 u.2.2.2.2) = us.map RawFields.update := by
  induction us with
  | nil => rfl
  | cons u us ih =>
    obtain ⟨lane, flags, ack, grant, resend⟩ := u
    rw [List.flatMap_cons, List.map_cons, List.length_cons, ← ih]
    simp only [enc16, List.cons_append, List.nil_append, parseUpdates]
    rw [be16_of_enc16 ack rfl, be16_of_enc16 grant rfl, be16_of_enc16 resend rfl]
    rfl

theorem length_updateBytes (us : List RawFields) :
    (us.flatMap fun u => [u.1, u.2.1] ++ enc16 u.2.2.1 ++ enc16 u.2.2.2.1 ++ enc16 u.2.2.2.2).length = 8 * us.length := by
  induction us with
  | nil => rfl
  | cons u us ih =>
    rw [List.flatMap_cons, List.length_append, ih, List.length_cons]
    simp only [enc16, List.length_append, List.length_cons, List.length_nil]
    omega

theorem parseInbound_updates (unit : Byte) {us : List RawFields} {check : List Byte} (hcheck : check.length = 4) (some_ : 1 ≤ us.length)
    (most : us.length ≤ 16) : parseInbound ([unit, 0x21] ++ enc8 us.length
      ++ us.flatMap (fun u => [u.1, u.2.1] ++ enc16 u.2.2.1 ++ enc16 u.2.2.2.1 ++ enc16 u.2.2.2.2) ++ check) =
      some (.laneControl (us.map RawFields.update)) := by
  have length : (BitVec.ofNat 8 us.length).toNat = us.length := by
    rw [BitVec.toNat_ofNat, Nat.mod_eq_of_lt (by omega)]
  have total : ([unit, 0x21] ++ enc8 us.length
      ++ us.flatMap (fun u => [u.1, u.2.1] ++ enc16 u.2.2.1 ++ enc16 u.2.2.2.1 ++ enc16 u.2.2.2.2) ++ check).length =
      7 + 8 * us.length := by
    rw [List.length_append, List.length_append, length_updateBytes, hcheck]
    simp only [enc8, List.length_append, List.length_cons, List.length_nil]
    omega
  have body := frameBody_append (body := [unit, 0x21] ++ enc8 us.length
    ++ us.flatMap fun u => [u.1, u.2.1] ++ enc16 u.2.2.1 ++ enc16 u.2.2.2.1 ++ enc16 u.2.2.2.2) hcheck
  rw [parseInbound_of_control body, if_pos, length]
  · exact congrArg (fun updates => some (InboundContent.laneControl updates)) (parseUpdates_encode us)
  · rw [length]
    exact ⟨some_, most, total⟩

/-- A lane control frame whose length is not that of its count is no good frame (R152). -/
theorem parseInbound_badControl {bytes : List Byte} (long : 8 ≤ bytes.length) (kind : bytes[1]? = some 0x21)
    (h : ∀ n, bytes[2]? = some n → n = 0 ∨ 16 < n.toNat ∨ bytes.length ≠ 7 + 8 * n.toNat) : parseInbound bytes = none := by
  rw [← getElem?_frameBody (by omega)] at kind
  have third : (frameBody bytes)[2]? = bytes[2]? := getElem?_frameBody (by omega)
  obtain ⟨u, k, n, updates, body⟩ : ∃ u k n updates, frameBody bytes = u :: k :: n :: updates := by
    have length : 3 ≤ (frameBody bytes).length := by simp [frameBody]; omega
    match frameBody bytes, length with
    | u :: k :: n :: updates, _ => exact ⟨u, k, n, updates, rfl⟩
    | [], h | [_], h | [_, _], h => simp at h
  rw [body] at kind third
  obtain rfl : k = 0x21 := Option.some.inj kind
  rw [parseInbound_of_control body]
  refine if_neg ?_
  rintro ⟨positive, most, length⟩
  rcases h n third.symm with rfl | above | other
  · exact absurd positive (by decide)
  · omega
  · exact other length

/-- A command frame whose length is not that of its parameter count is no good frame (R152). -/
theorem parseInbound_badCommand {bytes : List Byte} (long : 8 ≤ bytes.length) (kind : bytes[1]? = some 0x22)
    (h : ∀ n, bytes[9]? = some n → bytes.length ≠ 14 + n.toNat) : parseInbound bytes = none := by
  rw [← getElem?_frameBody (by omega)] at kind
  unfold parseInbound
  split
  · rename_i u k rest body
    rw [body] at kind
    obtain rfl : k = 0x22 := Option.some.inj kind
    rw [if_neg (by decide)]
    split
    · rename_i e3 e2 e1 e0 q1 q0 code p params
      have length : (frameBody bytes).length = bytes.length - 4 := by simp [frameBody]
      have tenth : (frameBody bytes)[9]? = bytes[9]? := getElem?_frameBody (by rw [← length, body]; simp)
      rw [body] at tenth
      exact if_neg (h p tenth.symm)
    · rfl
  · rfl

section
variable {s : State} {bytes : List Byte}

theorem State.judgeInbound_of_short (h : bytes.length < 8) :
    s.judgeInbound bytes = s.countTrunk fun c => { c with inLengthErrors := satInc c.inLengthErrors } := if_pos h

variable (long : 8 ≤ bytes.length)
include long

theorem State.judgeInbound_of_badCheck (h : checkCorrect bytes = false) :
    s.judgeInbound bytes = s.countTrunk fun c => { c with inCheckErrors := satInc c.inCheckErrors } := by
  unfold State.judgeInbound
  rw [if_neg (Nat.not_lt.mpr long), if_pos h]

variable (checked : checkCorrect bytes = true)
include checked

theorem State.judgeInbound_of_badUnit (h : bytes[0]? ≠ some s.trunk.unit) :
    s.judgeInbound bytes = s.countTrunk fun c => { c with inUnitMismatch := satInc c.inUnitMismatch } := by
  unfold State.judgeInbound
  rw [if_neg (Nat.not_lt.mpr long), if_neg (by simp [checked]), if_pos h]

variable (unit : bytes[0]? = some s.trunk.unit)
include unit

theorem State.judgeInbound_of_badKind (control : bytes[1]? ≠ some 0x21) (command : bytes[1]? ≠ some 0x22) :
    s.judgeInbound bytes = s.countTrunk fun c => { c with inUnknownKind := satInc c.inUnknownKind } := by
  unfold State.judgeInbound
  rw [if_neg (Nat.not_lt.mpr long), if_neg (by simp [checked]), if_neg (not_not.mpr unit), if_pos ⟨control, command⟩]

variable (kind : bytes[1]? = some 0x21 ∨ bytes[1]? = some 0x22)
include kind

/-- A frame that passes the first four checks is good or has a length that is not its own (R152). -/
theorem State.judgeInbound_of_kind : s.judgeInbound bytes = match parseInbound bytes with
    | some content => ((s.countTrunk fun c => { c with framesInOk := satInc c.framesInOk }).dispatch content).arbitrate
    | none => s.countTrunk fun c => { c with inLengthErrors := satInc c.inLengthErrors } := by
  unfold State.judgeInbound
  rw [if_neg (Nat.not_lt.mpr long), if_neg (by simp [checked]), if_neg (not_not.mpr unit),
    if_neg fun neither => kind.elim neither.1 neither.2] <;> rfl

end

/-- The update of a good lane control frame is handed on, or refused for a lane above 15 (R153). -/
theorem State.dispatchUpdate_eq (x : State) (u : RawFields) : x.dispatchUpdate u.update =
    if h : u.1.toNat < 16 then { x with trunk := { x.trunk with handed := x.trunk.handed ++
        [.update ⟨⟨u.1.toNat, h⟩, u.2.2.1, u.2.2.2.1, if u.2.1.getLsbD 0 then some u.2.2.2.2 else none⟩] } }
      else (x.countTrunk fun c => { c with updateRefused := satInc c.updateRefused }).raise srcTrunkProtocol := by
  unfold State.dispatchUpdate
  by_cases h : u.1.toNat < 16
  · rw [dif_pos h, RawFields.update, laneOf_eq (l := ⟨u.1.toNat, h⟩) rfl]
  · rw [dif_neg h, RawFields.update, laneOf_none (Nat.not_lt.mp h)]
    rfl

section
variable {s : State}

theorem State.inboundEnd_of_none (h : s.trunk.inbound = none) : s.inboundEnd = s := by
  unfold State.inboundEnd
  rw [h]

theorem State.inboundEnd_of_tooLong (h : s.trunk.inbound = some .tooLong) : s.inboundEnd =
    ({ s with trunk := { s.trunk with inbound := none } } : State).countTrunk fun c =>
      { c with inLengthErrors := satInc c.inLengthErrors } := by
  unfold State.inboundEnd
  rw [h]

theorem State.inboundEnd_of_receiving {bytes : List Byte} (h : s.trunk.inbound = some (.receiving bytes)) : s.inboundEnd =
    ({ s with trunk := { s.trunk with inbound := none } } : State).judgeInbound bytes := by
  unfold State.inboundEnd
  rw [h]

end

/-- Settles O41: the delimiters and bytes of a frame, and its five checks in order. -/
theorem inboundFramesAreJudged : Obligations.InboundFramesAreJudged := by
  refine ⟨fun s running => ⟨?_, ?_, fun none => ?_, fun b => ⟨fun bytes receiving => ?_, fun other => ?_⟩⟩,
    fun s s0 count running hs0 hcount => ?_⟩
  · rw [exec_trunkStartDelimiter, running_of_resetN _ running, Trunk.startInbound_eq]
    by_cases up : s.trunk.linkUp = true
    · rw [if_pos up, if_pos up]
    · rw [if_neg up, if_neg up]
  · rw [exec_trunkAbortDelimiter, running_of_resetN _ running]
  · rw [exec_trunkEndDelimiter, running_of_resetN _ running, State.inboundEnd_of_none none]
  · rw [exec_trunkByteArrival, running_of_resetN _ running, Trunk.inboundByte, receiving]
    rfl
  · rw [exec_trunkByteArrival, running_of_resetN _ running, Trunk.inboundByte]
    rcases other with none | long
    · rw [none]
    · rw [long]
  · have counted : ∀ f, s0.countTrunk f = count f := fun f => by rw [hcount, hs0]; rfl
    have sameUnit : s0.trunk.unit = s.trunk.unit := by rw [hs0]
    rw [exec_trunkEndDelimiter, running_of_resetN _ running]
    refine ⟨fun long => ?_, fun bytes receiving => ?_⟩
    · rw [State.inboundEnd_of_tooLong long, ← hs0, counted]
    · rw [State.inboundEnd_of_receiving receiving, ← hs0, ← sameUnit]
      refine ⟨fun short => ?_, fun long bad => ?_, fun long checked => ⟨fun mismatch => ?_, fun unit control command => ?_,
        fun unit badLength => ?_, fun c check hcheck short hbytes t ht => ?_, fun us check hcheck some_ most hbytes => ?_⟩⟩
      · rw [State.judgeInbound_of_short short, counted]
      · rw [State.judgeInbound_of_badCheck long bad, counted]
      · rw [State.judgeInbound_of_badUnit long checked mismatch, counted]
      · rw [State.judgeInbound_of_badKind long checked unit control command, counted]
      · have none : parseInbound bytes = none := badLength.elim (fun h => parseInbound_badControl long h.1 h.2)
          fun h => parseInbound_badCommand long h.1 h.2
        rw [State.judgeInbound_of_kind long checked unit (badLength.imp And.left And.left), none]
        dsimp only
        rw [counted]
      · have unit : bytes[0]? = some s0.trunk.unit := by rw [hbytes]; rfl
        have kind : bytes[1]? = some 0x22 := by rw [hbytes]; rfl
        rw [State.judgeInbound_of_kind long checked unit (.inr kind), hbytes, parseInbound_command _ hcheck short]
        dsimp only
        rw [counted, ← ht]
        have handed : t.trunk.handed = s.trunk.handed := by rw [ht, hcount, hs0]
        rw [← handed]
        rfl
      · have unit : bytes[0]? = some s0.trunk.unit := by rw [hbytes]; rfl
        have kind : bytes[1]? = some 0x21 := by rw [hbytes]; rfl
        rw [State.judgeInbound_of_kind long checked unit (.inl kind), hbytes, parseInbound_updates _ hcheck some_ most]
        simp only [State.dispatch, List.foldl_map, State.dispatchUpdate_eq, List.length_map]
        refine congrArg (fun t : State => Host.Outcome.next (List.foldl _ t us).arbitrate) ?_
        rw [hcount, hs0]
        rfl

/-! ## The arbiter (R157 to R159) -/

section
variable {s : State}

theorem State.arbitrate_of_busy (h : s.trunk.outbound ≠ none ∨ s.trunk.linkUp = false ∨ s.trunk.request ≠ .none) : s.arbitrate = s := by
  refine if_neg fun free => ?_
  simp only [Trunk.mayChoose, Bool.and_eq_true, Option.isNone_iff_eq_none, beq_iff_eq] at free
  obtain ⟨⟨wire, up⟩, request⟩ := free
  rcases h with h | h | h
  · exact h wire
  · rw [up] at h; cases h
  · exact h request

variable (wire : s.trunk.outbound = none) (up : s.trunk.linkUp = true) (request : s.trunk.request = .none)
include wire up request

theorem State.mayChoose_of_free : s.trunk.mayChoose = true := by
  simp [Trunk.mayChoose, wire, up, request]

theorem State.arbitrate_of_response {r : Response} {rest : List Response} (h : s.trunk.responses = r :: rest) :
    s.arbitrate = s.startResponse r rest := by
  unfold State.arbitrate
  rw [if_pos (State.mayChoose_of_free wire up request), h]

variable (idle : s.trunk.responses = [])
include idle

theorem State.arbitrate_of_notice (session : s.mu.epoch ≠ none) (notice : s.notices.queue ≠ []) :
    s.arbitrate = { s with trunk := { s.trunk with request := .batch } } := by
  have asks : (s.sessionOpen && !s.notices.queue.isEmpty) = true := by
    simp [State.sessionOpen, Option.isSome_iff_ne_none, session, notice]
  unfold State.arbitrate
  rw [if_pos (State.mayChoose_of_free wire up request), idle]
  exact if_pos asks

/-- With no response and no batch to send, the arbiter looks for a lane, but for a reset in execution. -/
theorem State.arbitrate_of_lanes (h : s.mu.epoch = none ∨ s.notices.queue = []) : s.arbitrate =
    if s.resetInExecution then s
    else match s.nextLane with
      | some l => { s with trunk := { s.trunk with request := .sendStart l } }
      | none => s := by
  have quiet : ¬(s.sessionOpen && !s.notices.queue.isEmpty) = true := by
    rcases h with h | h <;> simp [State.sessionOpen, h]
  unfold State.arbitrate
  rw [if_pos (State.mayChoose_of_free wire up request), idle]
  exact if_neg quiet

end

section
variable {s : State}

theorem State.nextLane_eq {k : LaneId} (eligible : s.eligible (s.trunk.lastServed + 1 + k) = true)
    (before : ∀ j : LaneId, j < k → s.eligible (s.trunk.lastServed + 1 + j) = false) :
    s.nextLane = some (s.trunk.lastServed + 1 + k) := by
  unfold State.nextLane servingOrder
  rw [List.find?_map]
  have found : (List.finRange 16).find? (s.eligible ∘ fun k => s.trunk.lastServed + 1 + k) = some k := by
    refine find_eq_some_of_getElem k.val (finRange_getElem _ k.isLt) eligible fun j y hj hy => ?_
    rw [finRange_getElem j (by omega)] at hy
    cases hy
    exact before ⟨j, by omega⟩ hj
  rw [found]
  rfl

theorem State.nextLane_none (h : ∀ l, s.eligible l = false) : s.nextLane = none := by
  unfold State.nextLane
  rw [List.find?_eq_none]
  intro l _
  simp [h l]

theorem State.startResponse_of_room {r : Response} {rest : List Response} (h : rest.length < 7 ∨ s.mu.readyResponse = none) :
    s.startResponse r rest = { s with trunk := { s.trunk with
      responses := rest, outbound := some (.response r (r.frame s.trunk.unit)) } } := by
  unfold State.startResponse
  by_cases room : rest.length < 7
  · exact if_pos (Nat.succ_lt_succ room)
  · rw [h.resolve_left room, ite_self]

theorem State.startResponse_of_waiting {r r' : Response} {rest : List Response} {c : Command} (up : s.trunk.linkUp = true)
    (full : 7 ≤ rest.length) (ready : s.mu.readyResponse = some (c, r')) : s.startResponse r rest = { s with
      trunk := { s.trunk with responses := rest ++ [r'], outbound := some (.response r (r.frame s.trunk.unit)) }
      mu := { s.mu with
        executing := none, last := some ⟨c.epoch, c.seq, r'⟩, commandsDone := satInc s.mu.commandsDone } } := by
  have queued : ¬rest.length + 1 < Config.responsePlaces := Nat.not_lt.mpr (Nat.succ_le_succ full)
  unfold State.startResponse State.endCommand Trunk.placeResponse
  dsimp only
  rw [if_neg queued, ready]
  dsimp only
  rw [if_pos up]

end

/-- Settles O42: who is eligible, and the arbiter's choice in its order. -/
theorem arbiterChoosesInOrder : Obligations.ArbiterChoosesInOrder := by
  refine ⟨fun s l u hu => ?_, fun s => ⟨State.arbitrate_of_busy, fun wire up request => ⟨fun r rest responses t ht =>
    ⟨fun room => ?_, fun full c r' ready => ?_⟩, fun idle => ⟨State.arbitrate_of_notice wire up request idle, fun quiet =>
      ⟨fun none => ?_, fun noReset k eligible before => ?_⟩⟩⟩⟩⟩
  · rw [hu]
    exact s.eligible_iff l
  · rw [State.arbitrate_of_response wire up request responses, ht,
      State.startResponse_of_room (room.imp_right fun h => Mu.readyResponse_none h)]
  · rw [State.arbitrate_of_response wire up request responses, ht,
      State.startResponse_of_waiting up full (Mu.readyResponse_eq ready)]
  · rw [State.arbitrate_of_lanes wire up request idle quiet]
    rcases none with reset | none
    · rw [if_pos reset]
    · rw [State.nextLane_none none, ite_self]
  · rw [State.arbitrate_of_lanes wire up request idle quiet, if_neg (by simp [noReset]), State.nextLane_eq eligible before]

/-! ## Outbound frames (R156, R160, R162, R193) -/

/-- The byte of a subject (10.3). -/
theorem Subject.enc8_code (x : Subject) : enc8 x.code = match x with | .none => [0xFF] | .port p => enc8 p | .lane l => enc8 l := by
  cases x <;> rfl

theorem Notice.entry_eq (x : Notice) : x.entry = enc8 x.kind.code
    ++ (match x.subject with | .none => [0xFF] | .port p => enc8 p | .lane l => enc8 l) ++ enc32 x.time ++ enc16 x.count := by
  rw [Notice.entry, Subject.enc8_code]

theorem PlacedRecord.encode_eq (r : PlacedRecord) : r.encode = match r with
    | .bound stream ts value => [0x00] ++ encCount stream ++ enc8 value.length ++ enc32 ts ++ value
    | .unbound key rule ts value => [0x01] ++ enc8 key.port ++ enc24 key.station ++ enc16 key.tag ++ enc8 rule ++ enc32 ts
        ++ enc8 value.length ++ [0x00, 0x00, 0x00] ++ value := by
  cases r <;> rfl

theorem Bundle.header_eq {b : Bundle} {reason : CloseReason} {q : SeqNo} {opened closed : Word} (hreason : b.closeReason = some reason)
    (hseq : b.seq = some q) (hopen : b.openTime = some opened) (hclosed : b.closeTime = some closed) : b.header =
      enc8 b.lane ++ enc8 reason.code ++ enc16 q ++ enc8 b.records.length ++ enc8 b.resendCount ++ encCount b.payload
        ++ enc32 opened ++ enc32 closed := by
  unfold Bundle.header
  rw [hreason, hseq, hopen, hclosed]
  rfl

section
variable {s : State}

theorem State.frameOutEnds_of_frame {bytes : List Byte}
    (h : (∃ r, s.trunk.outbound = some (.response r bytes)) ∨ ∃ n, s.trunk.outbound = some (.notices n bytes)) :
    s.frameOutEnds = (({ s with trunk := { s.trunk with outbound := none } } : State).countFrameOut).arbitrate := by
  have free : s.clearWire = { s with trunk := { s.trunk with outbound := none } } :=
    State.clearWire_of_other fun _ _ _ _ => by rcases h with ⟨r, h⟩ | ⟨n, h⟩ <;> simp [h]
  unfold State.frameOutEnds
  rcases h with ⟨r, h⟩ | ⟨n, h⟩ <;> (rw [h]; dsimp only; rw [free])

theorem State.bundleFrameEnds_of_sending {l : LaneId} {carried : WireBundle} {bytes : List Byte}
    (h : s.trunk.outbound = some (.bundle l .sending carried bytes)) : s.bundleFrameEnds = s.clearWire.countFrameOut.arbitrate := by
  have sending : s.trunk.sendingBundle none = true := by
    unfold Trunk.sendingBundle
    rw [h]
  exact if_pos sending

theorem State.cutFrameEnds_of_cutting {l : LaneId} {carried : WireBundle} {bytes : List Byte}
    (h : s.trunk.outbound = some (.bundle l .cutting carried bytes)) :
    s.cutFrameEnds = ({ s.clearWire with mu := s.mu.cutEnded } : State).arbitrate := by
  unfold State.cutFrameEnds
  rw [h]

theorem State.takeBatchRequest_of_batch (request : s.trunk.request = .batch) (session : s.mu.epoch ≠ none) (notice : s.notices.queue ≠ [])
    (wire : s.trunk.outbound = none) : s.takeBatchRequest = { s with
      notices := s.notices.afterBatch
      trunk := { s.trunk with
        request := .none, outbound := some (.notices s.notices.batch (s.notices.batch.frame s.trunk.unit)) } } := by
  have found : (s.sessionOpen && !s.notices.queue.isEmpty && s.trunk.outbound.isNone) = true := by
    simp [State.sessionOpen, Option.isSome_iff_ne_none, session, notice, wire]
  unfold State.takeBatchRequest
  rw [request]
  exact if_pos found

theorem State.takeBatchRequest_of_none (request : s.trunk.request = .batch) (h : s.mu.epoch = none ∨ s.notices.queue = []) :
    s.takeBatchRequest = ({ s with trunk := { s.trunk with request := .none } } : State).arbitrate := by
  have none_ : ¬(s.sessionOpen && !s.notices.queue.isEmpty && s.trunk.outbound.isNone) = true := by
    rcases h with h | h <;> simp [State.sessionOpen, h]
  unfold State.takeBatchRequest
  rw [request]
  exact if_neg none_

end

/-- Settles O43: the bytes of the three frames, their ends, and the batch. -/
theorem outboundFramesEnd : Obligations.OutboundFramesEnd := by
  refine ⟨fun unit frame hframe => ⟨fun r => ?_, fun n => ?_, fun b reason q opened closed hreason hseq hopen hclosed => ?_⟩,
    ⟨rfl, rfl, rfl⟩, fun s free running hfree out hout => ?_⟩
  · rw [hframe]
    rfl
  · rw [hframe]
    unfold NoticeBatch.frame withCheck
    rw [show Notice.entry = _ from funext Notice.entry_eq]
    rfl
  · rw [hframe]
    unfold Bundle.frame withCheck
    rw [Bundle.header_eq hreason hseq hopen hclosed, show PlacedRecord.encode = _ from funext PlacedRecord.encode_eq]
    simp only [List.append_assoc]
    rfl
  · have counted : ∀ x : State, x.countFrameOut = out x := fun x => by rw [hout]; rfl
    have retains {l mode q bytes} (wire : s.trunk.outbound = some (.bundle l mode (.retained q) bytes)) : s.clearWire = free := by
      rw [hfree]
      exact State.clearWire_of_other fun _ _ _ _ => by simp [wire]
    have releases {l mode b bytes} (wire : s.trunk.outbound = some (.bundle l mode (.releasing b) bytes)) :
        s.clearWire = free.freeCells b.cells := by
      rw [hfree]
      exact State.clearWire_of_releasing wire
    rw [exec_outboundFrameEnd, exec_bundleFrameEnd, exec_cutFrameEnd, exec_noticeBatchRequest, running_of_resetN _ running,
      running_of_resetN _ running, running_of_resetN _ running, running_of_resetN _ running]
    refine ⟨fun bytes wire => ?_, fun l q bytes wire => ?_, fun l b bytes wire => ?_, fun l carried bytes t wire ht => ?_,
      fun request => ⟨fun session notice wire => ?_, fun none => ?_⟩⟩
    · rw [State.frameOutEnds_of_frame wire, ← hfree, counted]
    · rw [State.bundleFrameEnds_of_sending wire, retains wire, counted]
    · rw [State.bundleFrameEnds_of_sending wire, releases wire, counted]
    · have cleared : s.clearWire = t := by
        rcases ht with ⟨⟨q, rfl⟩, rfl⟩ | ⟨b, rfl, rfl⟩
        · exact retains wire
        · exact releases wire
      have mu : t.mu = s.mu := by rw [← cleared, s.clearWire_frame]
      rw [State.cutFrameEnds_of_cutting wire, cleared]
      refine ⟨fun c aborted cutting => ?_, fun other => ?_⟩
      · rw [Mu.cutEnded_of_cutting cutting]
      · rw [Mu.cutEnded_of_other other, ← mu]
    · rw [State.takeBatchRequest_of_batch request session notice wire]
      rfl
    · rw [State.takeBatchRequest_of_none request none]

end Sys2Proof.Machine

/-! Arrivals, the end of a command, sessions and READ_STATUS. Proofs of O44, O45, O47 and O48. -/

namespace Sys2Proof.Machine

/-! ## COMMAND_ARRIVAL (R170 to R172) -/

section
variable {m : Mu} {c : Command}

theorem Mu.completedBefore_eq {x : Completed} (last : m.last = some x) (epoch : x.epoch = c.epoch) (seq : x.seq = c.seq) :
    m.completedBefore c = some x.response := by
  unfold Mu.completedBefore
  rw [last]
  exact if_pos ⟨epoch, seq⟩

theorem Mu.completedBefore_none (h : ¬∃ x, m.last = some x ∧ x.epoch = c.epoch ∧ x.seq = c.seq) : m.completedBefore c = none := by
  unfold Mu.completedBefore
  split
  · rename_i x last
    exact if_neg fun same => h ⟨x, last, same⟩
  · rfl

theorem Mu.waitsOrRuns_iff : m.waitsOrRuns c = true ↔ (∃ q ∈ m.queue, q.epoch = c.epoch ∧ q.seq = c.seq)
    ∨ ∃ x, m.executing = some x ∧ x.command.epoch = c.epoch ∧ x.command.seq = c.seq := by
  unfold Mu.waitsOrRuns
  cases m.executing <;> simp [Command.same]

end

section
variable {s : State} {c : Command}

theorem State.takeArrival_of_none (h : ∀ c, Handover.arrival c ∉ s.trunk.handed) : s.takeArrival = s := by
  unfold State.takeArrival
  rw [firstArrival_none h]

theorem State.takeArrival_of_first {rest : List Handover} (h : firstArrival s.trunk.handed = some (c, rest)) :
    s.takeArrival = ({ s with trunk := { s.trunk with handed := rest } } : State).judgeArrival c := by
  unfold State.takeArrival
  rw [h]

theorem Trunk.hasRoom_iff {t : Trunk} : t.hasRoom = true ↔ t.responses.length < 8 := decide_eq_true_iff

theorem State.judgeArrival_of_down (h : s.trunk.linkUp = false) : s.judgeArrival c = { s with mu := s.mu.countDiscarded } := if_pos h

variable (up : s.trunk.linkUp = true)
include up

theorem State.judgeArrival_of_repeated {r : Response} (h : s.mu.completedBefore c = some r) : s.judgeArrival c =
    if s.trunk.responses.length < 8 then
      ({ s with trunk := s.trunk.placeResponse { r with replayed := true }, mu := s.mu.countReplay } : State).arbitrate
    else { s with mu := s.mu.countDiscarded } := by
  unfold State.judgeArrival
  rw [if_neg (by simp [up]), h]
  exact if_congr Trunk.hasRoom_iff rfl rfl

variable (new : s.mu.completedBefore c = none)
include new

theorem State.judgeArrival_of_waiting (h : s.mu.waitsOrRuns c = true) : s.judgeArrival c = { s with mu := s.mu.countDuplicate } := by
  unfold State.judgeArrival
  rw [if_neg (by simp [up]), new]
  exact if_pos h

variable (unknown : s.mu.waitsOrRuns c = false)
include unknown

theorem State.judgeArrival_of_full (h : 8 ≤ s.mu.queue.length) : s.judgeArrival c =
    if s.trunk.responses.length < 8 then
      ({ s with trunk := s.trunk.placeResponse (c.respond .busy []), mu := s.mu.countBusy } : State).arbitrate
    else { s with mu := s.mu.countDiscarded } := by
  unfold State.judgeArrival
  rw [if_neg (by simp [up]), new]
  dsimp only
  rw [if_neg (by simp [unknown])]
  exact (if_pos h).trans (if_congr Trunk.hasRoom_iff rfl rfl)

theorem State.judgeArrival_of_room (h : s.mu.queue.length < 8) :
    s.judgeArrival c = { s with mu := { s.mu with queue := s.mu.queue ++ [c] } } := by
  unfold State.judgeArrival
  rw [if_neg (by simp [up]), new]
  dsimp only
  rw [if_neg (by simp [unknown])]
  exact if_neg (Nat.not_le.mpr h)

end

theorem Trunk.placeResponse_of_up {t : Trunk} (up : t.linkUp = true) (r : Response) :
    t.placeResponse r = { t with responses := t.responses ++ [r] } := if_pos up

/-- Settles O44: the oldest arrival in flight, judged by the five cases in order. -/
theorem commandArrivalByItsFiveCases : Obligations.CommandArrivalByItsFiveCases := by
  refine ⟨fun s running none => ?_, fun s c before after t running handed ht repeated waiting hrepeated hwaiting => ?_⟩
  · rw [exec_commandArrival, running_of_resetN _ running, State.takeArrival_of_none none]
  · have first : firstArrival s.trunk.handed = some (c, before.map Handover.update ++ after) := by
      rw [handed, firstArrival_updates]
    rw [exec_commandArrival, running_of_resetN _ running, State.takeArrival_of_first first, ← ht]
    have link : t.linkUp = s.trunk.linkUp := by rw [ht]
    have responses : t.responses = s.trunk.responses := by rw [ht]
    refine ⟨fun down => ?_, fun up => ?_⟩
    · rw [State.judgeArrival_of_down (s := { s with trunk := t }) (link.trans down)]
      rfl
    · have placed (r : Response) : t.placeResponse r = { t with responses := s.trunk.responses ++ [r] } := by
        rw [Trunk.placeResponse_of_up (link.trans up), responses]
      have linked : ({ s with trunk := t } : State).trunk.linkUp = true := link.trans up
      have waits (h : waiting) : s.mu.waitsOrRuns c = true := Mu.waitsOrRuns_iff.mpr (hwaiting ▸ h)
      have fresh (h : ¬waiting) : s.mu.waitsOrRuns c = false := Bool.eq_false_iff.mpr fun w => h (hwaiting ▸ Mu.waitsOrRuns_iff.mp w)
      have new (h : ¬repeated) : s.mu.completedBefore c = none := Mu.completedBefore_none (hrepeated ▸ h)
      refine ⟨fun x last epoch seq => ?_, fun h w => ?_, fun h w full => ?_, fun h w room => ?_⟩
      · rw [State.judgeArrival_of_repeated (s := { s with trunk := t }) linked (Mu.completedBefore_eq last epoch seq)]
        dsimp only
        rw [responses, placed]
        exact ⟨fun room => by rw [if_pos room]; rfl, fun full => by rw [if_neg (Nat.not_lt.mpr full)]; rfl⟩
      · rw [State.judgeArrival_of_waiting (s := { s with trunk := t }) linked (by exact new h) (by exact waits w)]
        rfl
      · rw [State.judgeArrival_of_full (s := { s with trunk := t }) linked (by exact new h) (by exact fresh w) (by exact full)]
        dsimp only
        rw [responses, placed]
        exact ⟨fun room => by rw [if_pos room]; rfl, fun full => by rw [if_neg (Nat.not_lt.mpr full)]; rfl⟩
      · rw [State.judgeArrival_of_room (s := { s with trunk := t }) linked (by exact new h) (by exact fresh w) (by exact room)]

/-! ## COMMAND_END (R176) -/

section
variable {s : State} {c : Command} {r : Response} (ready : s.mu.readyResponse = some (c, r))
include ready

theorem State.commandEnds_of_room (h : s.trunk.responses.length < 8) : s.commandEnds = (s.endCommand c r).arbitrate := by
  unfold State.commandEnds
  rw [ready]
  exact if_pos (Trunk.hasRoom_iff.mpr h)

theorem State.commandEnds_of_full (h : 8 ≤ s.trunk.responses.length) : s.commandEnds = s := by
  unfold State.commandEnds
  rw [ready]
  exact if_neg fun room => absurd (Trunk.hasRoom_iff.mp room) (Nat.not_lt.mpr h)

end

theorem Trunk.placeResponse_eq (t : Trunk) (r : Response) :
    t.placeResponse r = { t with responses := if t.linkUp then t.responses ++ [r] else t.responses } := by
  unfold Trunk.placeResponse
  split <;> rfl

/-- Settles O45: a ready response is placed where there is room, and else waits. -/
theorem commandEndsAtItsPlacement : Obligations.CommandEndsAtItsPlacement := by
  intro s c r running executing
  have ready := Mu.readyResponse_eq executing
  rw [exec_commandEnd, running_of_resetN _ running]
  refine ⟨fun full => ?_, fun room => ?_⟩
  · rw [State.commandEnds_of_full ready full]
  · rw [State.commandEnds_of_room ready room, State.endCommand, Trunk.placeResponse_eq]

/-! ## OPEN_SESSION and CLOSE_SESSION (R167 to R169) -/

section
variable {s : State} {c : Command}

theorem exec_openSession_begins {rest : List Command} (hb : s.begins 0x01 c rest) {a : Unit}
    (parsed : readWhole readNothing c.params = some a) : exec .openSession s = .next ((s.dequeued rest).openSession c a) :=
  running_runCommand hb parsed rfl

theorem State.openSession_of_stale (h : c.epoch.toNat ≤ s.mu.lastEpoch.toNat) (a : Unit) :
    s.openSession c a = s.finish c .staleEpoch [] := if_neg (Nat.not_lt.mpr h)

theorem State.openSession_of_newer (h : s.mu.lastEpoch.toNat < c.epoch.toNat) (a : Unit) :
    s.openSession c a = ((s.takeEpoch c.epoch).finish c .ok (enc32 c.epoch ++ encFlag s.sessionOpen)).arbitrate := if_pos h

end

/-- Settles O47: an epoch above the last one used opens, any other is stale; a close makes it absent. -/
theorem sessionsOpenAndClose : Obligations.SessionsOpenAndClose := by
  refine fun s c rest params => ⟨fun hb => ?_, fun hb he => ?_⟩
  · rw [exec_openSession_begins (a := ()) hb (by rw [params]; rfl)]
    refine ⟨fun stale => ?_, fun newer => ?_⟩
    · rw [State.openSession_of_stale (by exact stale), State.dequeued_finish]
    · rw [State.openSession_of_newer (by exact newer)]
      rfl
  · rw [exec_closeSession_begins (a := ()) hb he (by rw [params]; rfl)]
    rfl

/-! ## READ_STATUS (R178) -/

theorem Action.ofCode_iff {b : Byte} {a : Action} : Action.ofCode b = some a ↔ b.toNat = a.code := by
  refine ⟨fun h => ?_, Action.ofCode_eq⟩
  unfold Action.ofCode at h
  split at h
  · cases h; exact congrArg BitVec.toNat ‹_›
  · split at h
    · cases h; exact congrArg BitVec.toNat ‹_›
    · cases h

theorem StalePolicy.ofCode_iff {b : Byte} {k : StalePolicy} : StalePolicy.ofCode b = some k ↔ b.toNat = k.code := by
  refine ⟨fun h => ?_, StalePolicy.ofCode_eq⟩
  unfold StalePolicy.ofCode at h
  split at h
  · cases h; exact congrArg BitVec.toNat ‹_›
  · split at h
    · cases h; exact congrArg BitVec.toNat ‹_›
    · split at h
      · cases h; exact congrArg BitVec.toNat ‹_›
      · cases h

theorem portNumber_eq (p : PortId) : portNumber (some p.val) = some p := dif_pos p.isLt

theorem portNumber_none {number : Option Nat} (h : ∀ n, number = some n → 8 ≤ n) : portNumber number = none := by
  unfold portNumber
  split
  · exact dif_neg (Nat.not_lt.mpr (h _ rfl))
  · rfl

theorem laneNumber_eq (l : LaneId) : laneNumber (some l.val) = some l := dif_pos l.isLt

theorem laneNumber_none {number : Option Nat} (h : ∀ n, number = some n → 16 ≤ n) : laneNumber number = none := by
  unfold laneNumber
  split
  · exact dif_neg (Nat.not_lt.mpr (h _ rfl))
  · rfl

theorem readWhole_readStatus {scope : Byte} {bytes : List Byte} {number : Option Nat} (h : OptionalCount bytes number) :
    readWhole readReadStatus ([scope] ++ bytes) = some ⟨scope, number⟩ := by
  have last := readOpt_count h []
  rw [List.append_nil] at last
  simp [readWhole, readReadStatus, read8, last]

theorem exec_readStatus_begins {s : State} {c : Command} {rest : List Command} {a : ReadStatusParams} (hb : s.begins 0x03 c rest)
    (allowed : c.epoch = 0 ∨ s.mu.epoch = some c.epoch) (parsed : readWhole readReadStatus c.params = some a) :
    exec .readStatus s = .next ((s.dequeued rest).readStatus c a) :=
  running_runCommand hb parsed (sessionCheck_readOnly allowed)

section
variable {s : State} (c : Command) {a : ReadStatusParams}

theorem State.readStatus_of_some {bytes : List Byte} (h : s.statusResult a = some bytes) : s.readStatus c a = s.finish c .ok bytes := by
  unfold State.readStatus
  rw [h]

theorem State.readStatus_of_none (h : s.statusResult a = none) : s.readStatus c a = s.finish c .badRange [] := by
  unfold State.readStatus
  rw [h]

theorem State.statusResult_none (h : 3 < a.scope.toNat ∨ (a.scope = 0x01 ∧ ∀ n, a.number = some n → 8 ≤ n)
    ∨ (a.scope = 0x02 ∧ ∀ n, a.number = some n → 16 ≤ n)) : s.statusResult a = none := by
  unfold State.statusResult
  rcases h with outside | ⟨port, number⟩ | ⟨lane, number⟩
  · have other : ∀ c : Byte, c.toNat ≤ 3 → a.scope ≠ c := fun c small same => absurd (same ▸ outside) (Nat.not_lt.mpr small)
    rw [if_neg (other 0 (by decide)), if_neg (other 1 (by decide)), if_neg (other 2 (by decide)), if_neg (other 3 (by decide))]
  · rw [port, portNumber_none number]
    rfl
  · rw [lane, laneNumber_none number]
    rfl

end

/-- The hold line of a port, by its five conditions (R21). -/
theorem State.holdLine_iff (s : State) (p : PortId) : s.holdLine p = true ↔ (s.port p).state = .disabled ∨ (s.port p).state = .fault
    ∨ s.pool.held = true ∨ (s.port p).resetMark = true ∨ (s.port p).fifoHigh = true := by
  simp [State.holdLine, or_assoc]

/-- Settles O48: the codes, and the values of each scope. -/
theorem readStatusReportsTheScope : Obligations.ReadStatusReportsTheScope := by
  refine ⟨⟨rfl, rfl, rfl, rfl, fun b => ⟨fun a => Action.ofCode_iff, fun k => StalePolicy.ofCode_iff⟩⟩,
    fun s c rest scope bytes number hb allowed hnumber params => ?_⟩
  rw [exec_readStatus_begins hb allowed (by rw [params]; exact readWhole_readStatus hnumber)]
  refine ⟨fun device => ?_, fun port p hold named held => ?_, fun lane l u named hu => ?_, fun pool => ?_, fun bad => ?_⟩
  · subst device
    rw [State.readStatus_of_some (s := s.dequeued rest) c (by rfl), State.dequeued_finish]
    refine congrArg (fun bytes => Host.Outcome.next (s.answered c rest .ok bytes)) ?_
    simp only [State.deviceStatus, List.append_assoc]
    rfl
  · subst port named
    have line : s.holdLine p = hold := Bool.eq_iff_iff.mpr ((s.holdLine_iff p).trans held.symm)
    have result : (s.dequeued rest).statusResult ⟨0x01, some p.val⟩ =
        (portNumber (some p.val)).map fun p : PortId => [0x01] ++ encCount p ++ (s.dequeued rest).portStatus p := rfl
    rw [portNumber_eq] at result
    rw [State.readStatus_of_some (s := s.dequeued rest) c result, State.dequeued_finish, ← line]
    refine congrArg (fun bytes => Host.Outcome.next (s.answered c rest .ok bytes)) ?_
    simp only [State.portStatus, List.append_assoc]
    rfl
  · subst lane named hu
    have result : (s.dequeued rest).statusResult ⟨0x02, some l.val⟩ =
        (laneNumber (some l.val)).map fun l : LaneId => [0x02] ++ encCount l ++ ((s.dequeued rest).lane l).status := rfl
    rw [laneNumber_eq] at result
    rw [State.readStatus_of_some (s := s.dequeued rest) c result, State.dequeued_finish]
    refine congrArg (fun bytes => Host.Outcome.next (s.answered c rest .ok bytes)) ?_
    simp only [Lane.status, List.append_assoc]
    rfl
  · subst pool
    rw [State.readStatus_of_some (s := s.dequeued rest) c (by rfl), State.dequeued_finish]
    refine congrArg (fun bytes => Host.Outcome.next (s.answered c rest .ok bytes)) ?_
    simp only [Pool.status, List.append_assoc]
    rfl
  · rw [State.readStatus_of_none c (State.statusResult_none (by exact bad)), State.dequeued_finish]

end Sys2Proof.Machine

/-! The checks at the beginning of a command. Proof of O46. -/

namespace Sys2Proof.Machine

/-! ## Readers that end exactly at the last byte (R203) -/

/-- A read of the whole parameter bytes succeeds on just the bytes that hold the fields. -/
def ReadsExactly {α : Type} (holds : List Byte → Bool) (f : Reader α) : Prop := ∀ bytes, (readWhole f bytes).isSome = holds bytes

/-- A reader of one field of n bytes. -/
def Takes {α : Type} (n : Nat) (f : Reader α) : Prop :=
  ∀ bytes, bytes.length < n ∧ f bytes = none ∨ n ≤ bytes.length ∧ ∃ a, f bytes = some (a, bytes.drop n)

theorem read8_takes : Takes 1 read8
  | [] => .inl ⟨by simp, rfl⟩
  | a :: _ => .inr ⟨by simp, a, rfl⟩

theorem readFlag_takes : Takes 1 readFlag
  | [] => .inl ⟨by simp, rfl⟩
  | a :: _ => .inr ⟨by simp, a != 0, rfl⟩

theorem read16_takes : Takes 2 read16
  | [] => .inl ⟨by simp, rfl⟩
  | [_] => .inl ⟨by simp, rfl⟩
  | a :: b :: _ => .inr ⟨by simp, be16 a b, rfl⟩

theorem readCount_takes : Takes 2 readCount
  | [] => .inl ⟨by simp, rfl⟩
  | [_] => .inl ⟨by simp, rfl⟩
  | a :: b :: _ => .inr ⟨by simp, (be16 a b).toNat, rfl⟩

theorem read24_takes : Takes 3 read24
  | [] => .inl ⟨by simp, rfl⟩
  | [_] => .inl ⟨by simp, rfl⟩
  | [_, _] => .inl ⟨by simp, rfl⟩
  | a :: b :: c :: _ => .inr ⟨by simp, be24 a b c, rfl⟩

theorem readKey_takes : Takes 6 readKey
  | [] => .inl ⟨by simp, rfl⟩
  | [_] => .inl ⟨by simp, rfl⟩
  | [_, _] => .inl ⟨by simp, rfl⟩
  | [_, _, _] => .inl ⟨by simp, rfl⟩
  | [_, _, _, _] => .inl ⟨by simp, rfl⟩
  | [_, _, _, _, _] => .inl ⟨by simp, rfl⟩
  | p :: a :: b :: c :: d :: e :: _ => .inr ⟨by simp, ⟨p, be24 a b c, be16 d e⟩, rfl⟩

/-- A field of n bytes, and then what the rest must hold. -/
def afterBytes (n : Nat) (holds : List Byte → Bool) (bytes : List Byte) : Bool := decide (n ≤ bytes.length) && holds (bytes.drop n)

/-- An optional field of n bytes, and then what the rest must hold (R202). -/
def afterOptional (n : Nat) (holds : List Byte → Bool) : List Byte → Bool
  | [] => false
  | p :: bytes => if p = 0 then holds bytes else if p = 1 then afterBytes n holds bytes else false

/-- A list of bytes behind its count, and then what the rest must hold (R202). -/
def afterList (holds : List Byte → Bool) : List Byte → Bool
  | [] => false
  | n :: bytes => afterBytes n.toNat holds bytes

section
variable {α β : Type} {f : Reader α} {g : α × List Byte → Option (β × List Byte)} {n : Nat} {holds : List Byte → Bool}

theorem readWhole_bind_none {f : Reader α} {bytes : List Byte} (h : f bytes = none) : readWhole (fun bytes => f bytes >>= g) bytes = none := by
  unfold readWhole
  dsimp only
  rw [h]
  rfl

theorem readWhole_bind_some {f : Reader α} {bytes rest : List Byte} {a : α} (h : f bytes = some (a, rest)) :
    readWhole (fun bytes => f bytes >>= g) bytes = readWhole (fun bytes => g (a, bytes)) rest := by
  unfold readWhole
  dsimp only
  rw [h]
  rfl

theorem readsExactly_end (x : α) : ReadsExactly (fun bytes => bytes.length == 0) fun bytes => some (x, bytes)
  | [] => rfl
  | _ :: _ => rfl

theorem readsExactly_field (first : Takes n f) (others : ∀ a, ReadsExactly holds fun bytes => g (a, bytes)) :
    ReadsExactly (afterBytes n holds) fun bytes => f bytes >>= g := by
  intro bytes
  unfold afterBytes
  rcases first bytes with ⟨short, none⟩ | ⟨long, a, read⟩
  · rw [readWhole_bind_none none, decide_eq_false (Nat.not_le.mpr short)]
    rfl
  · rw [readWhole_bind_some read, others a, decide_eq_true long, Bool.true_and]

theorem readsExactly_optional {g : Option α × List Byte → Option (β × List Byte)} (first : Takes n f) (others : ∀ a, ReadsExactly holds fun bytes => g (a, bytes)) :
    ReadsExactly (afterOptional n holds) fun bytes => readOpt f bytes >>= g := by
  intro bytes
  cases bytes with
  | nil => rfl
  | cons p bytes =>
    simp only [afterOptional]
    by_cases absent : p = 0
    · subst absent
      have read : readOpt f (0 :: bytes) = some (none, bytes) := rfl
      rw [readWhole_bind_some read, others none]
      rfl
    · rw [if_neg absent]
      by_cases present : p = 1
      · subst present
        unfold afterBytes
        rcases first bytes with ⟨short, none⟩ | ⟨long, a, read⟩
        · have readNone : readOpt f (1 :: bytes) = .none := by simp [readOpt, none]
          rw [readWhole_bind_none readNone, decide_eq_false (Nat.not_le.mpr short)]
          rfl
        · have readSome : readOpt f (1 :: bytes) = some (some a, bytes.drop n) := by simp [readOpt, read]
          rw [readWhole_bind_some readSome, others (some a), decide_eq_true long]
          rfl
      · have readNone : readOpt f (p :: bytes) = none := (if_neg absent).trans (if_neg present)
        rw [readWhole_bind_none readNone, if_neg present]
        rfl

theorem readsExactly_list {g : List Byte × List Byte → Option (β × List Byte)}
    (others : ∀ a, ReadsExactly holds fun bytes => g (a, bytes)) : ReadsExactly (afterList holds) fun bytes => readList bytes >>= g := by
  intro bytes
  cases bytes with
  | nil => rfl
  | cons n bytes =>
    simp only [afterList, afterBytes]
    by_cases short : bytes.length < n.toNat
    · have readNone : readList (n :: bytes) = none := if_pos short
      rw [readWhole_bind_none readNone, decide_eq_false (Nat.not_le.mpr short)]
      rfl
    · have readSome : readList (n :: bytes) = some (bytes.take n.toNat, bytes.drop n.toNat) := if_neg short
      rw [readWhole_bind_some readSome, others, decide_eq_true (Nat.not_lt.mp short), Bool.true_and]

theorem afterBytes_length (n m : Nat) (bytes : List Byte) :
    afterBytes n (fun rest => rest.length == m) bytes = (bytes.length == n + m) := by
  unfold afterBytes
  dsimp only
  rw [List.length_drop, Bool.eq_iff_iff, Bool.and_eq_true, decide_eq_true_iff, beq_iff_eq, beq_iff_eq]
  omega

/-- The fields of fixed lengths: the read succeeds on the sum of their lengths. -/
theorem readsExactly_fixed {m : Nat} (first : Takes n f) (others : ∀ a, ReadsExactly (fun rest => rest.length == m) fun bytes => g (a, bytes)) :
    ReadsExactly (fun bytes => bytes.length == n + m) fun bytes => f bytes >>= g := by
  intro bytes
  refine Eq.trans ?_ (afterBytes_length n m bytes)
  exact readsExactly_field first others bytes

end

/-! ## The parameter fields of each command (8.7) -/

theorem optionalCounts_zero : optionalCounts 0 = fun bytes => bytes.length == 0 := by
  funext bytes
  cases bytes <;> rfl

/-- Optional two-byte fields, one after the other. -/
theorem optionalCounts_succ (n : Nat) : optionalCounts (n + 1) = afterOptional 2 (optionalCounts n) := by
  funext bytes
  match bytes with
  | [] => rfl
  | p :: bytes =>
    by_cases absent : p = 0
    · subst absent
      rfl
    · by_cases present : p = 1
      · subst present
        match bytes with
        | [] => rfl
        | [_] => rfl
        | _ :: _ :: _ => simp [optionalCounts, afterOptional, afterBytes]
      · rw [optionalCounts]
        · simp only [afterOptional]
          rw [if_neg absent, if_neg present]
        · exact fun _ same => absent (List.cons.inj same).1
        · exact fun _ _ _ same => present (List.cons.inj same).1

theorem readNothing_exact : ReadsExactly (fun bytes => bytes.isEmpty) readNothing
  | [] => rfl
  | _ :: _ => rfl

theorem read8_exact : ReadsExactly (fun bytes => bytes.length == 1) read8
  | [] => rfl
  | [_] => rfl
  | _ :: _ :: _ => by simp [readWhole, read8]

theorem readKey_exact : ReadsExactly (fun bytes => bytes.length == 6) readKey := by
  intro bytes
  rcases readKey_takes bytes with ⟨short, none⟩ | ⟨long, a, read⟩
  · have other : (bytes.length == 6) = false := beq_eq_false_iff_ne.mpr (by omega)
    simp [readWhole, none, other]
  · unfold readWhole
    rw [read]
    by_cases equal : bytes.length = 6
    · rw [List.drop_eq_nil_of_le equal.le]
      exact (beq_iff_eq.mpr equal).symm
    · have left : bytes.drop 6 ≠ [] := by
        rw [ne_eq, List.drop_eq_nil_iff]
        omega
      obtain ⟨x, xs, shape⟩ := List.exists_cons_of_ne_nil left
      rw [shape]
      exact (beq_eq_false_iff_ne.mpr equal).symm

theorem readPortSet_exact : ReadsExactly (fun bytes => bytes.length == 2) readPortSet :=
  (readsExactly_fixed read8_takes fun _ => readsExactly_fixed readFlag_takes fun _ => readsExactly_end _ :
    ReadsExactly (fun bytes => bytes.length == 1 + (1 + 0)) readPortSet)

theorem readRuleRead_exact : ReadsExactly (fun bytes => bytes.length == 2) readRuleRead :=
  (readsExactly_fixed read8_takes fun _ => readsExactly_fixed read8_takes fun _ => readsExactly_end _ :
    ReadsExactly (fun bytes => bytes.length == 1 + (1 + 0)) readRuleRead)

theorem readPoolSet_exact : ReadsExactly (fun bytes => bytes.length == 4) readPoolSet :=
  (readsExactly_fixed readCount_takes fun _ => readsExactly_fixed readCount_takes fun _ => readsExactly_end _ :
    ReadsExactly (fun bytes => bytes.length == 2 + (2 + 0)) readPoolSet)

theorem readRuleStage_exact : ReadsExactly (fun bytes => bytes.length == 17) readRuleStage :=
  (readsExactly_fixed read8_takes fun _ => readsExactly_fixed readFlag_takes fun _ => readsExactly_fixed read8_takes fun _ =>
    readsExactly_fixed read24_takes fun _ => readsExactly_fixed read24_takes fun _ => readsExactly_fixed read16_takes fun _ =>
    readsExactly_fixed read16_takes fun _ => readsExactly_fixed read8_takes fun _ => readsExactly_fixed read8_takes fun _ =>
    readsExactly_fixed readFlag_takes fun _ => readsExactly_fixed read8_takes fun _ => readsExactly_end _ :
    ReadsExactly (fun bytes => bytes.length == 1 + (1 + (1 + (3 + (3 + (2 + (2 + (1 + (1 + (1 + (1 + 0))))))))))) readRuleStage)

theorem readStreamWrite_exact :
    ReadsExactly (afterBytes 6 (afterBytes 1 (afterOptional 2 fun bytes => bytes.length == 2))) readStreamWrite := by
  refine readsExactly_field readKey_takes fun _ => readsExactly_field read8_takes fun _ => readsExactly_optional readCount_takes fun _ => ?_
  change ReadsExactly (fun bytes => bytes.length == 1 + (1 + 0)) _
  exact readsExactly_fixed read8_takes fun _ => readsExactly_fixed readFlag_takes fun _ => readsExactly_end _

theorem readClassWrite_exact :
    ReadsExactly (afterBytes 1 (afterBytes 1 (afterOptional 1 (afterOptional 1 (optionalCounts 1))))) readClassWrite := by
  rw [optionalCounts_succ, optionalCounts_zero]
  exact readsExactly_field read8_takes fun _ => readsExactly_field read8_takes fun _ => readsExactly_optional read8_takes fun _ =>
    readsExactly_optional read8_takes fun _ => readsExactly_optional readCount_takes fun _ => readsExactly_end _

theorem readSpreadWrite_exact : ReadsExactly (afterBytes 1 (afterList (afterOptional 3 fun bytes => bytes.length == 0))) readSpreadWrite :=
  readsExactly_field read8_takes fun _ => readsExactly_list fun _ => readsExactly_optional read24_takes fun _ => readsExactly_end _

theorem readNoticeRearm_exact : ReadsExactly (afterBytes 1 (afterList fun bytes => bytes.length == 0)) readNoticeRearm :=
  readsExactly_field read8_takes fun _ => readsExactly_list fun _ => readsExactly_end _

theorem readReadStatus_exact : ReadsExactly (afterBytes 1 (optionalCounts 1)) readReadStatus := by
  rw [optionalCounts_succ, optionalCounts_zero]
  exact readsExactly_field read8_takes fun _ => readsExactly_optional readCount_takes fun _ => readsExactly_end _

theorem readReadCounters_exact : ReadsExactly (afterBytes 1 (afterOptional 2 fun bytes => bytes.length == 1)) readReadCounters := by
  refine readsExactly_field read8_takes fun _ => readsExactly_optional readCount_takes fun _ => ?_
  change ReadsExactly (fun bytes => bytes.length == 1 + 0) _
  exact readsExactly_fixed readFlag_takes fun _ => readsExactly_end _

theorem readLaneConfig_exact : ReadsExactly (afterBytes 1 (optionalCounts 7)) readLaneConfig := by
  rw [optionalCounts_succ, optionalCounts_succ, optionalCounts_succ, optionalCounts_succ, optionalCounts_succ, optionalCounts_succ,
    optionalCounts_succ, optionalCounts_zero]
  exact readsExactly_field read8_takes fun _ => readsExactly_optional readCount_takes fun _ => readsExactly_optional readCount_takes
    fun _ => readsExactly_optional readCount_takes fun _ => readsExactly_optional readCount_takes fun _ => readsExactly_optional
    readCount_takes fun _ => readsExactly_optional readCount_takes fun _ => readsExactly_optional readCount_takes fun _ =>
    readsExactly_end _

theorem afterBytes_cons (n : Nat) (holds : List Byte → Bool) (b : Byte) (bytes : List Byte) :
    afterBytes (n + 1) holds (b :: bytes) = afterBytes n holds bytes := by
  simp [afterBytes]

theorem afterBytes_zero (holds : List Byte → Bool) (bytes : List Byte) : afterBytes 0 holds bytes = holds bytes := rfl

theorem parametersHold_streamWrite (bytes : List Byte) : parametersHold .streamWrite bytes =
    afterBytes 6 (afterBytes 1 (afterOptional 2 fun bytes => bytes.length == 2)) bytes := by
  match bytes with
  | [] | [_] | [_, _] | [_, _, _] | [_, _, _, _] | [_, _, _, _, _] | [_, _, _, _, _, _] | [_, _, _, _, _, _, _] => rfl
  | _ :: _ :: _ :: _ :: _ :: _ :: _ :: p :: bytes =>
    simp only [afterBytes_cons, afterBytes_zero, afterOptional]
    by_cases absent : p = 0#8
    · subst absent
      match bytes with
      | [] | [_] | [_, _] => rfl
      | _ :: _ :: _ :: _ => simp [parametersHold]
    · by_cases present : p = 1#8
      · subst present
        match bytes with
        | [] | [_] | [_, _] | [_, _, _] | [_, _, _, _] => rfl
        | _ :: _ :: _ :: _ :: _ :: _ => simp [parametersHold, afterBytes]
      · simp [parametersHold, absent, present]

theorem parametersHold_readCounters (bytes : List Byte) : parametersHold .readCounters bytes =
    afterBytes 1 (afterOptional 2 fun bytes => bytes.length == 1) bytes := by
  match bytes with
  | [] | [_] => rfl
  | _ :: p :: bytes =>
    simp only [afterBytes_cons, afterBytes_zero, afterOptional]
    by_cases absent : p = 0#8
    · subst absent
      match bytes with
      | [] | [_] => rfl
      | _ :: _ :: _ => simp [parametersHold]
    · by_cases present : p = 1#8
      · subst present
        match bytes with
        | [] | [_] | [_, _] | [_, _, _] => rfl
        | _ :: _ :: _ :: _ :: _ => simp [parametersHold, afterBytes]
      · simp [parametersHold, absent, present]

theorem parametersHold_readStatus (bytes : List Byte) :
    parametersHold .readStatus bytes = afterBytes 1 (optionalCounts 1) bytes := by
  cases bytes with
  | nil => rfl
  | cons a bytes => rw [afterBytes_cons, afterBytes_zero, parametersHold]

theorem parametersHold_laneConfig (bytes : List Byte) :
    parametersHold .laneConfig bytes = afterBytes 1 (optionalCounts 7) bytes := by
  cases bytes with
  | nil => rfl
  | cons a bytes => rw [afterBytes_cons, afterBytes_zero, parametersHold]

theorem parametersHold_noticeRearm (bytes : List Byte) :
    parametersHold .noticeRearm bytes = afterBytes 1 (afterList fun bytes => bytes.length == 0) bytes := by
  match bytes with
  | [] | [_] => rfl
  | _ :: n :: bytes => rw [afterBytes_cons, afterBytes_zero, afterList, afterBytes_length, parametersHold, Nat.add_zero]

/-- The optional salt at the end of a SPREAD_WRITE (R69). -/
theorem afterOptional_salt (bytes : List Byte) : afterOptional 3 (fun rest => rest.length == 0) bytes =
    match bytes with | [0x00] | [0x01, _, _, _] => true | _ => false := by
  match bytes with
  | [] => rfl
  | p :: bytes =>
    simp only [afterOptional]
    by_cases absent : p = 0#8
    · subst absent
      cases bytes <;> rfl
    · by_cases present : p = 1#8
      · subst present
        match bytes with
        | [] | [_] | [_, _] | [_, _, _] => rfl
        | _ :: _ :: _ :: _ :: _ => simp [afterBytes]
      · simp [absent, present]

theorem parametersHold_spreadWrite (bytes : List Byte) : parametersHold .spreadWrite bytes =
    afterBytes 1 (afterList (afterOptional 3 fun bytes => bytes.length == 0)) bytes := by
  match bytes with
  | [] | [_] => rfl
  | _ :: n :: bytes =>
    rw [afterBytes_cons, afterBytes_zero, afterList, afterBytes, afterOptional_salt, parametersHold]
    split <;> simp_all

theorem parametersHold_classWrite (bytes : List Byte) : parametersHold .classWrite bytes =
    afterBytes 1 (afterBytes 1 (afterOptional 1 (afterOptional 1 (optionalCounts 1)))) bytes := by
  match bytes with
  | [] | [_] | [_, _] => rfl
  | _ :: _ :: p :: bytes =>
    simp only [afterBytes_cons, afterBytes_zero, afterOptional]
    by_cases absent : p = 0#8
    · subst absent
      match bytes with
      | [] => rfl
      | q :: bytes =>
        by_cases none : q = 0#8
        · subst none
          rfl
        · by_cases one : q = 1#8
          · subst one
            cases bytes with
            | nil => rfl
            | cons a bytes => simp [parametersHold, afterBytes]
          · simp [parametersHold, none, one]
    · by_cases present : p = 1#8
      · subst present
        match bytes with
        | [] | [_] => rfl
        | a :: q :: bytes =>
          by_cases none : q = 0#8
          · subst none
            simp [parametersHold, afterOptional, afterBytes]
          · by_cases one : q = 1#8
            · subst one
              cases bytes with
              | nil => rfl
              | cons b bytes => simp [parametersHold, afterOptional, afterBytes]
            · simp [parametersHold, afterOptional, afterBytes, none, one]
      · simp [parametersHold, absent, present]

/-! ## STREAM_READ and READ_COUNTERS: the last byte is the clear flag (R203) -/

theorem readNeed_eq (clear : Byte) : readNeed (clear != 0) = if some clear = some (0x00 : Byte) then .readOnly else .matching := by
  by_cases h : clear = 0
  · subst h
    rfl
  · rw [flag_of_ne h, if_neg fun same => h (Option.some.inj same)]
    rfl

theorem readStreamKey_exact : ReadsExactly (fun bytes => bytes.length == 6 + (1 + 0)) (fun bs => do
    let (k, bs) ← readKey bs
    let (clear, bs) ← readFlag bs
    some ((⟨.key k, clear⟩ : StreamReadParams), bs)) :=
  readsExactly_fixed readKey_takes fun _ => readsExactly_fixed readFlag_takes fun _ => readsExactly_end _

theorem readStreamNumber_exact : ReadsExactly (fun bytes => bytes.length == 2 + (1 + 0)) (fun bs => do
    let (n, bs) ← read16 bs
    let (clear, bs) ← readFlag bs
    some ((⟨.number n, clear⟩ : StreamReadParams), bs)) :=
  readsExactly_fixed read16_takes fun _ => readsExactly_fixed readFlag_takes fun _ => readsExactly_end _

theorem parametersHold_streamRead (sel : Byte) (bytes : List Byte) : parametersHold .streamRead (sel :: bytes) =
    if sel = 0x00 then bytes.length == 7 else if sel = 0x01 then bytes.length == 3 else bytes.length == 3 || bytes.length == 7 := by
  rw [parametersHold]

theorem parseStreamRead_isSome (bytes : List Byte) : (parseStreamRead bytes).isSome = parametersHold .streamRead bytes := by
  cases bytes with
  | nil => rfl
  | cons sel bytes =>
    rw [parametersHold_streamRead]
    simp only [parseStreamRead]
    split
    · exact readStreamKey_exact bytes
    · split
      · exact readStreamNumber_exact bytes
      · by_cases length : bytes.length = 3 ∨ bytes.length = 7
        · rw [if_pos (by simpa using length)]
          simpa using length
        · rw [if_neg (by simpa using length)]
          simpa using length

theorem parseStreamRead_need {bytes : List Byte} {a : StreamReadParams} (parsed : parseStreamRead bytes = some a) :
    readNeed a.clear = sessionNeedOf .streamRead bytes := by
  have holds : parametersHold .streamRead bytes = true := by rw [← parseStreamRead_isSome, parsed]; rfl
  match bytes, parsed, holds with
  | sel :: bytes, parsed, holds =>
    rw [parametersHold_streamRead] at holds
    by_cases key : sel = 0
    · subst key
      have length : bytes.length = 7 := by simpa using holds
      match bytes, length, parsed with
      | [p, s2, s1, s0, t1, t0, clear], _, parsed =>
        cases parsed
        exact readNeed_eq clear
    · by_cases number : sel = 1
      · subst number
        have length : bytes.length = 3 := by simpa using holds
        match bytes, length, parsed with
        | [hi, lo, clear], _, parsed =>
          cases parsed
          exact readNeed_eq clear
      · simp only [parseStreamRead] at parsed
        rw [if_neg key, if_neg number] at parsed
        have clear : a.clear = ((sel :: bytes).getLastD 0 != 0) := by
          split at parsed
          · cases parsed; rfl
          · cases parsed
        have last : (sel :: bytes).getLast? = some ((sel :: bytes).getLastD 0) := by rw [List.getLast?_cons, List.getLastD_eq_getLast?, List.getLast?_cons]; rfl
        rw [clear, readNeed_eq, ← last]
        rfl

theorem readReadCounters_need {bytes : List Byte} {a : ReadCountersParams} (parsed : readWhole readReadCounters bytes = some a) :
    readCountersNeed a = sessionNeedOf .readCounters bytes := by
  have holds : afterBytes 1 (afterOptional 2 fun rest => rest.length == 1) bytes = true := by
    rw [← readReadCounters_exact, parsed]
    rfl
  match bytes, parsed, holds with
  | group :: p :: bytes, parsed, holds =>
    simp only [afterBytes_cons, afterBytes_zero, afterOptional] at holds
    by_cases absent : p = 0
    · subst absent
      have length : bytes.length = 1 := by simpa using holds
      match bytes, length, parsed with
      | [clear], _, parsed =>
        cases parsed
        exact readNeed_eq clear
    · by_cases present : p = 1
      · subst present
        rw [if_neg absent, if_pos rfl, afterBytes_length] at holds
        have length : bytes.length = 3 := by simpa using holds
        match bytes, length, parsed with
        | [hi, lo, clear], _, parsed =>
          cases parsed
          exact readNeed_eq clear
      · rw [if_neg absent, if_neg present] at holds
        cases holds

/-! ## The judgement of a command (R173 to R175) -/

theorem sessionCheck_refused {need : SessionNeed} {epoch : Word} {current : Option Word} (h : ¬sessionAllows need epoch current) :
    sessionCheck need epoch current = some (if current = none then .noSession else .staleEpoch) := by
  cases need with
  | exempt => exact absurd trivial h
  | readOnly =>
    refine (if_neg h).trans ?_
    cases current <;> rfl
  | matching =>
    refine (if_neg h).trans ?_
    cases current <;> rfl

section
variable {α : Type} {parse : List Byte → Option α} {need : α → SessionNeed} {effect : State → Command → α → State}
  {s : State} {code : Byte}

theorem State.runCommand_of_idle (h : s.mu.executing ≠ none ∨ s.mu.queue = []) : s.runCommand code parse need effect = s := by
  have nothing : s.beginCommand (· == code) = none := by
    unfold State.beginCommand
    split
    · rename_i idle queued
      rcases h with busy | empty
      · exact absurd idle busy
      · rw [empty] at queued; cases queued
    · rfl
  unfold State.runCommand
  rw [nothing]

variable {c : Command} {rest : List Command} (hb : s.begins code c rest)
include hb

theorem State.runCommand_of_badLength (h : parse c.params = none) :
    s.runCommand code parse need effect = s.answered c rest .badLength [] := by
  unfold State.runCommand
  rw [State.beginCommand_of_begins hb (· == code) (beq_self_eq_true code)]
  dsimp only
  rw [h]
  exact State.dequeued_finish ..

theorem State.runCommand_of_session {a : α} {status : Status} (parsed : parse c.params = some a)
    (h : sessionCheck (need a) c.epoch s.mu.epoch = some status) :
    s.runCommand code parse need effect = s.answered c rest status [] := by
  unfold State.runCommand
  rw [State.beginCommand_of_begins hb (· == code) (beq_self_eq_true code)]
  dsimp only
  rw [parsed]
  dsimp only
  rw [show (s.dequeued rest).mu.epoch = s.mu.epoch from rfl, h]
  exact State.dequeued_finish ..

end

/-- An event is the beginning of the management command with a code: it reads exactly the command's fields, has the command's session
need, and runs the command but for a READ_COUNTERS with owners left to read. -/
def BeginsCommand (i : Instr) (code : Byte) : Prop :=
  ∃ (α : Type) (parse : List Byte → Option α) (need : α → SessionNeed) (effect : State → Command → α → State),
    (∀ s, (i = .readCounters → ∀ c clear left result, s.mu.executing ≠ some ⟨c, .reading clear left result⟩) →
      exec i s = running (fun s => s.runCommand code parse need effect) s)
    ∧ (∀ bytes, (parse bytes).isSome = parametersHold i bytes)
    ∧ ∀ bytes a, parse bytes = some a → need a = sessionNeedOf i bytes

section
variable {i : Instr} {code : Byte} (begins : BeginsCommand i code) {s : State}
include begins

theorem exec_of_idle (running : s.resetN = true) (h : s.mu.executing ≠ none ∨ s.mu.queue = [])
    (quiet : i = .readCounters → ∀ c clear left result, s.mu.executing ≠ some ⟨c, .reading clear left result⟩) : exec i s = .next s := by
  obtain ⟨α, parse, need, effect, event, -, -⟩ := begins
  rw [event s quiet, running_of_resetN _ running, State.runCommand_of_idle h]

variable {c : Command} {rest : List Command} (hb : s.begins code c rest)
include hb

theorem exec_of_badLength (h : parametersHold i c.params = false) : exec i s = .next (s.answered c rest .badLength []) := by
  obtain ⟨α, parse, need, effect, event, exactly, -⟩ := begins
  have none : parse c.params = none := by
    rw [← exactly] at h
    simpa using h
  rw [event s fun _ _ _ _ _ => by rw [hb.2.1]; exact Option.some_ne_none _ ∘ Eq.symm, running_of_resetN _ hb.1,
    State.runCommand_of_badLength hb none]

theorem exec_of_badSession (h : parametersHold i c.params = true)
    (refused : ¬sessionAllows (sessionNeedOf i c.params) c.epoch s.mu.epoch) :
    exec i s = .next (s.answered c rest (if s.mu.epoch = none then .noSession else .staleEpoch) []) := by
  obtain ⟨α, parse, need, effect, event, exactly, needs⟩ := begins
  rw [← exactly] at h
  obtain ⟨a, parsed⟩ := Option.isSome_iff_exists.mp h
  rw [event s fun _ _ _ _ _ => by rw [hb.2.1]; exact Option.some_ne_none _ ∘ Eq.symm, running_of_resetN _ hb.1,
    State.runCommand_of_session hb parsed (by rw [needs _ a parsed]; exact sessionCheck_refused refused)]

end

/-- While no READ_COUNTERS has owners left, the event begins one. -/
theorem State.stepReadCounters_of_begins {s : State} (h : ∀ c clear left result, s.mu.executing ≠ some ⟨c, .reading clear left result⟩) :
    s.stepReadCounters = s.runCommand Code.readCounters (readWhole readReadCounters) readCountersNeed State.readCounters := by
  unfold State.stepReadCounters
  split
  · exact absurd ‹_› (h _ _ _ _)
  · rfl

/-- Each of the 22 management commands begins by its code. -/
theorem commandCode_begins {i : Instr} {code : Byte} (h : commandCode i = some code) : BeginsCommand i code := by
  cases i with
  | openSession =>
    cases h
    exact ⟨_, _, _, _, fun _ _ => rfl, fun bytes => readNothing_exact bytes, fun _ _ _ => rfl⟩
  | closeSession =>
    cases h
    exact ⟨_, _, _, _, fun _ _ => rfl, fun bytes => readNothing_exact bytes, fun _ _ _ => rfl⟩
  | readStatus =>
    cases h
    exact ⟨_, _, _, _, fun _ _ => rfl, fun bytes => (readReadStatus_exact bytes).trans (parametersHold_readStatus bytes).symm, fun _ _ _ => rfl⟩
  | datapathReset =>
    cases h
    exact ⟨_, _, _, _, fun _ _ => rfl, fun bytes => readNothing_exact bytes, fun _ _ _ => rfl⟩
  | portSet =>
    cases h
    exact ⟨_, _, _, _, fun _ _ => rfl, fun bytes => readPortSet_exact bytes, fun _ _ _ => rfl⟩
  | streamWrite =>
    cases h
    exact ⟨_, _, _, _, fun _ _ => rfl, fun bytes => (readStreamWrite_exact bytes).trans (parametersHold_streamWrite bytes).symm, fun _ _ _ => rfl⟩
  | streamDelete =>
    cases h
    exact ⟨_, _, _, _, fun _ _ => rfl, fun bytes => readKey_exact bytes, fun _ _ _ => rfl⟩
  | streamRead =>
    cases h
    exact ⟨_, _, _, _, fun _ _ => rfl, parseStreamRead_isSome, fun _ _ => parseStreamRead_need⟩
  | ruleStage =>
    cases h
    exact ⟨_, _, _, _, fun _ _ => rfl, fun bytes => readRuleStage_exact bytes, fun _ _ _ => rfl⟩
  | ruleApply =>
    cases h
    exact ⟨_, _, _, _, fun _ _ => rfl, fun bytes => readNothing_exact bytes, fun _ _ _ => rfl⟩
  | ruleRead =>
    cases h
    exact ⟨_, _, _, _, fun _ _ => rfl, fun bytes => readRuleRead_exact bytes, fun _ _ _ => rfl⟩
  | classWrite =>
    cases h
    exact ⟨_, _, _, _, fun _ _ => rfl, fun bytes => (readClassWrite_exact bytes).trans (parametersHold_classWrite bytes).symm, fun _ _ _ => rfl⟩
  | spreadWrite =>
    cases h
    exact ⟨_, _, _, _, fun _ _ => rfl, fun bytes => (readSpreadWrite_exact bytes).trans (parametersHold_spreadWrite bytes).symm, fun _ _ _ => rfl⟩
  | mapRead =>
    cases h
    exact ⟨_, _, _, _, fun _ _ => rfl, fun bytes => readNothing_exact bytes, fun _ _ _ => rfl⟩
  | poolSet =>
    cases h
    exact ⟨_, _, _, _, fun _ _ => rfl, fun bytes => readPoolSet_exact bytes, fun _ _ _ => rfl⟩
  | laneFlush =>
    cases h
    exact ⟨_, _, _, _, fun _ _ => rfl, fun bytes => read8_exact bytes, fun _ _ _ => rfl⟩
  | laneConfig =>
    cases h
    exact ⟨_, _, _, _, fun _ _ => rfl, fun bytes => (readLaneConfig_exact bytes).trans (parametersHold_laneConfig bytes).symm, fun _ _ _ => rfl⟩
  | laneStart =>
    cases h
    exact ⟨_, _, _, _, fun _ _ => rfl, fun bytes => read8_exact bytes, fun _ _ _ => rfl⟩
  | laneStop =>
    cases h
    exact ⟨_, _, _, _, fun _ _ => rfl, fun bytes => read8_exact bytes, fun _ _ _ => rfl⟩
  | laneReset =>
    cases h
    exact ⟨_, _, _, _, fun _ _ => rfl, fun bytes => read8_exact bytes, fun _ _ _ => rfl⟩
  | noticeRearm =>
    cases h
    exact ⟨_, _, _, _, fun _ _ => rfl, fun bytes => (readNoticeRearm_exact bytes).trans (parametersHold_noticeRearm bytes).symm, fun _ _ _ => rfl⟩
  | readCounters =>
    cases h
    refine ⟨_, _, _, State.readCounters, fun s quiet => ?_, fun bytes => (readReadCounters_exact bytes).trans (parametersHold_readCounters bytes).symm,
      fun _ _ => readReadCounters_need⟩
    rw [exec_readCounters]
    unfold running
    rw [State.stepReadCounters_of_begins (quiet rfl)] <;> rfl
  | _ => cases h

theorem State.refuseUnknown_of_begins {s : State} {c : Command} {rest : List Command} {code : Byte} (hb : s.begins code c rest)
    (unknown : commandIndex.contains code = false) : s.refuseUnknown = s.answered c rest .badCommand [] := by
  unfold State.refuseUnknown
  rw [State.beginCommand_of_begins hb _ (by rw [unknown]; rfl)]
  exact State.dequeued_finish ..

theorem State.refuseUnknown_of_idle {s : State} (h : s.mu.executing ≠ none ∨ s.mu.queue = []) : s.refuseUnknown = s := by
  have nothing : s.beginCommand (fun code => !commandIndex.contains code) = none := by
    unfold State.beginCommand
    split
    · rename_i idle queued
      rcases h with busy | empty
      · exact absurd idle busy
      · rw [empty] at queued; cases queued
    · rfl
  unfold State.refuseUnknown
  rw [nothing]

/-- The command index holds the codes of the commands (8.7). -/
theorem commandIndex_eq : commandIndex.map some = [Instr.openSession, .closeSession, .readStatus, .datapathReset, .portSet, .streamWrite,
    .streamDelete, .streamRead, .ruleStage, .ruleApply, .ruleRead, .classWrite, .spreadWrite, .mapRead, .poolSet, .laneFlush,
    .laneConfig, .laneStart, .laneStop, .laneReset, .noticeRearm, .readCounters].map commandCode := rfl

theorem commandIndex_contains {code : Byte} (h : ∀ i, commandCode i ≠ some code) : commandIndex.contains code = false := by
  refine Bool.eq_false_iff.mpr fun listed => ?_
  have code_ : some code ∈ commandIndex.map some := List.mem_map_of_mem (List.contains_iff_mem.mp listed)
  rw [commandIndex_eq] at code_
  obtain ⟨i, -, named⟩ := List.mem_map.mp code_
  exact h i named

/-- Settles O46: the code, the fields and the session of the command at the head of the queue. -/
theorem commandsAreJudgedAtTheirBeginning : Obligations.CommandsAreJudgedAtTheirBeginning := by
  refine ⟨fun s c rest code hb unknown => ?_, fun i s c rest code hcode hb =>
    ⟨exec_of_badLength (commandCode_begins hcode) hb, exec_of_badSession (commandCode_begins hcode) hb⟩,
    fun i s command running idle quiet => ?_⟩
  · rw [exec_unknownCommandCode, running_of_resetN _ hb.1, State.refuseUnknown_of_begins hb (commandIndex_contains unknown)]
  · rcases command with known | rfl
    · obtain ⟨code, hcode⟩ := Option.ne_none_iff_exists'.mp known
      exact exec_of_idle (commandCode_begins hcode) running idle quiet
    · rw [exec_unknownCommandCode, running_of_resetN _ running, State.refuseUnknown_of_idle idle]

end Sys2Proof.Machine

/-! READ_COUNTERS at the owners of its group. Proof of O52. -/

namespace Sys2Proof.Machine

/-! ## The events of a READ_COUNTERS (R196, R197) -/

theorem State.dequeued_clearOwner (s : State) (rest : List Command) (o : CounterOwner) :
    (s.dequeued rest).clearOwner o = (s.clearOwner o).dequeued rest := by
  cases o <;> rfl

theorem State.dequeued_ownerCounters (s : State) (rest : List Command) (o : CounterOwner) :
    (s.dequeued rest).ownerCounters o = s.ownerCounters o := by
  cases o <;> rfl

theorem readWhole_readReadCounters {group clear : Byte} {bytes : List Byte} {number : Option Nat} (h : OptionalCount bytes number) :
    readWhole readReadCounters ([group] ++ bytes ++ [clear]) = some ⟨group, number, clear != 0⟩ := by
  simp [readWhole, readReadCounters, read8, readFlag, readOpt_count h [clear]]

theorem exec_readCounters_begins {s : State} {c : Command} {rest : List Command} {a : ReadCountersParams} (hb : s.begins 0x61 c rest)
    (parsed : readWhole readReadCounters c.params = some a) (allowed : sessionCheck (readNeed a.clear) c.epoch s.mu.epoch = none) :
    exec .readCounters s = .next ((s.dequeued rest).readCounters c a) := by
  have idle : ∀ c clear left result, s.mu.executing ≠ some ⟨c, .reading clear left result⟩ := by simp [hb.2.1]
  have first := running_runCommand (need := readCountersNeed) (effect := State.readCounters) hb parsed allowed
  rw [running_of_resetN _ hb.1] at first
  rw [exec_readCounters, running_of_resetN _ hb.1, State.stepReadCounters_of_begins idle]
  exact first

section
variable {a : ReadCountersParams}

theorem ReadCountersParams.owners_none (h : 3 < a.group.toNat ∨ (a.group = 0x00 ∧ ∀ n, a.number = some n → 8 ≤ n)
    ∨ (a.group = 0x01 ∧ ∀ n, a.number = some n → 16 ≤ n)) : a.owners = none := by
  unfold ReadCountersParams.owners
  rcases h with outside | ⟨port, number⟩ | ⟨lane, number⟩
  · have other : ∀ c : Byte, c.toNat ≤ 3 → a.group ≠ c := fun c small same => absurd (same ▸ outside) (Nat.not_lt.mpr small)
    rw [if_neg (other 0 (by decide)), if_neg (other 1 (by decide)), if_neg (other 2 (by decide)), if_neg (other 3 (by decide))]
  · rw [port, portNumber_none number]
    rfl
  · rw [lane, laneNumber_none number]
    rfl

/-- The owners of the groups, in the order of R197. -/
theorem ReadCountersParams.owners_eq {head : List Byte} {o : CounterOwner} {left : List CounterOwner}
    (h : a.group = 0x00 ∧ (∃ p : PortId, a.number = some p.val ∧ head = [0x00] ++ encCount p ∧ o = .port p ∧ left = [])
      ∨ a.group = 0x01 ∧ (∃ l : LaneId, a.number = some l.val ∧ head = [0x01] ++ encCount l ∧ o = .assembler l ∧ left = [.ldu l])
      ∨ a.group = 0x02 ∧ head = [0x02] ∧ o = .trunk ∧ left = []
      ∨ a.group = 0x03 ∧ head = [0x03] ∧ o = .classifier ∧ left = [.streams, .pool, .mu, .notices]) :
    a.owners = some (head, o :: left) := by
  unfold ReadCountersParams.owners
  rcases h with ⟨group, p, number, rfl, rfl, rfl⟩ | ⟨group, l, number, rfl, rfl, rfl⟩ | ⟨group, rfl, rfl, rfl⟩ | ⟨group, rfl, rfl, rfl⟩
  · rw [group, number, portNumber_eq]
    rfl
  · rw [group, number, laneNumber_eq]
    rfl
  · rw [group]
    rfl
  · rw [group]
    rfl

variable (s : State) (c : Command)

theorem State.readCounters_of_badRange (h : a.owners = none) : s.readCounters c a = s.finish c .badRange [] := by
  unfold State.readCounters
  rw [h]

theorem State.readCounters_of_owners {head : List Byte} {owners : List CounterOwner} (h : a.owners = some (head, owners)) :
    s.readCounters c a = s.readOwner c a.clear owners head := by
  unfold State.readCounters
  rw [h]

end

/-- Settles O52: the counters of an owner are read as they stand, and a clearing read sets them to 0. -/
theorem readCountersReadsAndClears : Obligations.ReadCountersReadsAndClears := by
  refine ⟨fun s c rest group clear bytes number hb session hnumber params => ?_,
    fun s c clear o left result t running reading ht => ⟨?_, ?_⟩, fun s => ⟨?_, ?_, ?_, ?_⟩⟩
  · have event := exec_readCounters_begins hb (by rw [params]; exact readWhole_readReadCounters hnumber) (sessionCheck_readNeed session)
    refine ⟨fun bad => ?_, fun head o left t group ht => ?_⟩
    · rw [event, State.readCounters_of_badRange _ c (ReadCountersParams.owners_none bad), State.dequeued_finish]
    · rw [event, State.readCounters_of_owners _ c (ReadCountersParams.owners_eq group), State.readOwner_cons,
        State.dequeued_ownerCounters, State.dequeued_clearOwner]
      by_cases h : clear = 0
      · rw [ht, if_pos h]
        subst h
        rfl
      · rw [ht, if_neg h, flag_of_ne h]
        rfl
  · rw [exec_readCounters, running_of_resetN _ running]
    unfold State.stepReadCounters
    rw [reading]
    dsimp only
    rw [State.readOwner_cons, ht]
    rfl
  · have none : s.mu.readyResponse = none := Mu.readyResponse_none fun c r => by simp [reading]
    rw [exec_commandEnd, running_of_resetN _ running]
    unfold State.commandEnds
    rw [none]
  · exact fun p k hk => by subst hk; exact ⟨rfl, rfl⟩
  · exact fun l a u ha hu => by subst ha hu; exact ⟨rfl, rfl, rfl, rfl⟩
  · exact fun k hk => by subst hk; exact ⟨rfl, rfl⟩
  · exact ⟨rfl, rfl, rfl, rfl, rfl, rfl, rfl, rfl, rfl, rfl⟩

end Sys2Proof.Machine

/-! The notice sources and queue (chapter 9). Proof of O51. -/

namespace Sys2Proof.Machine

/-! ## Sources and their subjects (R186) -/

theorem sourceSubject_srcPortFault (p : PortId) : sourceSubject (srcPortFault p) = (.portFault, .port p) := dif_pos p.isLt

theorem sourceSubject_srcIngressOverflow (p : PortId) : sourceSubject (srcIngressOverflow p) = (.ingressOverflow, .port p) := by
  have number : (srcIngressOverflow p).val = 8 + p.val := rfl
  unfold sourceSubject
  rw [dif_neg (by omega), dif_pos (by omega)]
  simp [number]

theorem sourceSubject_srcUnmatched (p : PortId) : sourceSubject (srcUnmatched p) = (.unmatched, .port p) := by
  have number : (srcUnmatched p).val = 16 + p.val := rfl
  unfold sourceSubject
  rw [dif_neg (by omega), dif_neg (by omega), dif_pos (by omega)]
  simp [number]

theorem sourceSubject_srcLaneFullDrop (l : LaneId) : sourceSubject (srcLaneFullDrop l) = (.laneFullDrop, .lane l) := by
  have number : (srcLaneFullDrop l).val = 24 + l.val := rfl
  unfold sourceSubject
  rw [dif_neg (by omega), dif_neg (by omega), dif_neg (by omega), dif_pos (by omega)]
  simp [number]

/-! ## Events and re-arms (R187 to R191) -/

section
variable {u : NoticeUnit}

theorem NoticeUnit.offer_of_room (h : u.queue.length < 32) (n : Notice) : u.offer n = some { u with queue := u.queue ++ [n] } := if_pos h

theorem NoticeUnit.offer_of_full (h : 32 ≤ u.queue.length) (n : Notice) : u.offer n = none := if_neg (Nat.not_lt.mpr h)

theorem NoticeUnit.unconditional_of_room (h : u.queue.length < 32) (now : Word) (kind : NoticeKind) (l : LaneId) :
    u.unconditional now kind l = { u with queue := u.queue ++ [⟨kind, .lane l, now, 1⟩] } := by
  unfold NoticeUnit.unconditional
  rw [NoticeUnit.offer_of_room h]

theorem NoticeUnit.unconditional_of_full (h : 32 ≤ u.queue.length) (now : Word) (kind : NoticeKind) (l : LaneId) :
    u.unconditional now kind l = u.lose := by
  unfold NoticeUnit.unconditional
  rw [NoticeUnit.offer_of_full h]

variable {i : SourceNo} (now : Word)

theorem NoticeUnit.event_of_room (armed : (u.source i).arming = .armed) (h : u.queue.length < 32) : u.event now i =
    ({ u with queue := u.queue ++ [sourceNotice i now (satInc (u.source i).count)] } : NoticeUnit).setSource i ⟨.quiet, 0⟩ := by
  unfold NoticeUnit.event
  dsimp only
  rw [armed, NoticeUnit.offer_of_room h]

theorem NoticeUnit.event_of_full (armed : (u.source i).arming = .armed) (h : 32 ≤ u.queue.length) :
    u.event now i = u.lose.setSource i ⟨.pending, satInc (u.source i).count⟩ := by
  unfold NoticeUnit.event
  dsimp only
  rw [armed, NoticeUnit.offer_of_full h]

theorem NoticeUnit.event_of_counting (h : (u.source i).arming ≠ .armed) :
    u.event now i = u.setSource i ⟨.pending, satInc (u.source i).count⟩ := by
  unfold NoticeUnit.event
  cases hi : (u.source i).arming with
  | armed => exact absurd hi h
  | quiet => rfl
  | pending => rfl

variable (t : RearmTally)

theorem NoticeUnit.rearm_of_armed (h : (u.source i).arming = .armed) : NoticeUnit.rearm now (u, t) i = (u, t) := by
  unfold NoticeUnit.rearm
  dsimp only
  rw [h]

theorem NoticeUnit.rearm_of_quiet (h : (u.source i).arming = .quiet) :
    NoticeUnit.rearm now (u, t) i = (u.setSource i ⟨.armed, (u.source i).count⟩, { t with armed := t.armed + 1 }) := by
  unfold NoticeUnit.rearm
  dsimp only
  rw [h]

theorem NoticeUnit.rearm_of_room (pending : (u.source i).arming = .pending) (h : u.queue.length < 32) : NoticeUnit.rearm now (u, t) i =
    (({ u with queue := u.queue ++ [sourceNotice i now (u.source i).count] } : NoticeUnit).setSource i ⟨.quiet, 0⟩,
      { t with delivered := t.delivered + 1 }) := by
  unfold NoticeUnit.rearm
  dsimp only
  rw [pending]
  dsimp only
  rw [NoticeUnit.offer_of_room h]

theorem NoticeUnit.rearm_of_full (pending : (u.source i).arming = .pending) (h : 32 ≤ u.queue.length) :
    NoticeUnit.rearm now (u, t) i = (u.lose, { t with lost := t.lost + 1 }) := by
  unfold NoticeUnit.rearm
  dsimp only
  rw [pending]
  dsimp only
  rw [NoticeUnit.offer_of_full h]

end

/-! ## NOTICE_REARM (R192) -/

theorem readWhole_readNoticeRearm {selection count : Byte} {sources : List Byte} (h : sources.length = count.toNat) :
    readWhole readNoticeRearm ([selection, count] ++ sources) = some ⟨selection, sources⟩ := by
  have entries := readList_entries h []
  rw [List.append_nil] at entries
  simp [readWhole, readNoticeRearm, read8, entries]

section
variable {a : NoticeRearmParams}

theorem NoticeRearmParams.concerned_none
    (h : a.selection.toNat ≥ 2 ∨ (a.selection = 0x00 ∧ (a.sources = [] ∨ ∃ b ∈ a.sources, 44 ≤ b.toNat))) : a.concerned = none := by
  unfold NoticeRearmParams.concerned
  rcases h with outside | ⟨list, wrong⟩
  · have other : ∀ c : Byte, c.toNat ≤ 1 → a.selection ≠ c := fun c small same => by rw [same] at outside; omega
    rw [if_neg (other 1 (by decide)), if_neg fun h => other 0 (by decide) h.1]
  · rw [list, if_neg (by decide), if_neg]
    rintro ⟨-, some, all⟩
    rcases wrong with none | ⟨b, hb, outside⟩
    · exact some none
    · exact absurd (of_decide_eq_true (List.all_eq_true.mp all b hb)) (Nat.not_lt.mpr outside)

theorem NoticeRearmParams.concerned_eq {concerned : SourceNo → Bool}
    (h : a.selection = 0x01 ∧ (∀ i, concerned i = true) ∨ a.selection = 0x00 ∧ a.sources ≠ [] ∧ (∀ b ∈ a.sources, b.toNat < 44)
      ∧ ∀ i, concerned i = true ↔ ∃ b ∈ a.sources, b.toNat = i.val) : a.concerned = some concerned := by
  unfold NoticeRearmParams.concerned
  rcases h with ⟨all, every⟩ | ⟨list, some, inside, named⟩
  · rw [if_pos all]
    exact congrArg _ (funext fun i => (every i).symm)
  · rw [list, if_neg (by decide), if_pos ⟨rfl, some, List.all_eq_true.mpr fun b hb => decide_eq_true (inside b hb)⟩]
    refine congrArg _ (funext fun i => Bool.eq_iff_iff.mpr ?_)
    rw [named i, List.any_eq_true]
    simp only [beq_iff_eq]

variable (s : State) (c : Command)

theorem State.noticeRearm_of_badRange (h : a.concerned = none) : s.noticeRearm c a = s.finish c .badRange [] := by
  unfold State.noticeRearm
  rw [h]

theorem State.noticeRearm_of_concerned {concerned : SourceNo → Bool} (h : a.concerned = some concerned) {x : NoticeUnit × RearmTally}
    (hx : x = s.notices.rearmAll s.deviceTime concerned) : s.noticeRearm c a =
      (({ s with notices := x.1 } : State).finish c .ok
        (encCount x.2.armed ++ encCount x.2.delivered ++ encCount x.2.lost ++ encCount x.1.queue.length)).arbitrate := by
  unfold State.noticeRearm
  rw [h, hx]

end

/-- Settles O51: events, re-arms and unconditional notices, and the command that re-arms the sources it names. -/
theorem noticeSourcesByTheirTables : Obligations.NoticeSourcesByTheirTables := by
  refine ⟨⟨fun p => ⟨rfl, sourceSubject_srcPortFault p, rfl, sourceSubject_srcIngressOverflow p, rfl, sourceSubject_srcUnmatched p⟩,
      fun l => ⟨rfl, sourceSubject_srcLaneFullDrop l⟩, rfl, rfl, rfl, rfl, rfl, rfl, rfl, rfl, fun _ _ => rfl, fun _ _ _ => rfl⟩,
    fun u i x => ⟨rfl, u.source_setSource i x, fun j hj => u.source_setSource_ne x hj, rfl⟩, fun _ _ _ => rfl,
    fun u now i lost hlost notice hn => ?_,
    fun u now kind l => ⟨fun room => NoticeUnit.unconditional_of_room room .., fun full => NoticeUnit.unconditional_of_full full ..⟩,
    fun s c rest selection count sources hb he hcount params => ?_⟩
  · obtain rfl : notice = sourceNotice i now := funext hn
    subst hlost
    exact ⟨NoticeUnit.event_of_room now, NoticeUnit.event_of_full now, NoticeUnit.event_of_counting now, fun t =>
      ⟨NoticeUnit.rearm_of_armed now t, NoticeUnit.rearm_of_quiet now t, NoticeUnit.rearm_of_room now t, NoticeUnit.rearm_of_full now t⟩⟩
  · have event := exec_noticeRearm_begins hb he (by rw [params]; exact readWhole_readNoticeRearm hcount)
    refine ⟨fun bad => ?_, fun concerned named x hx => ?_⟩
    · rw [event, State.noticeRearm_of_badRange _ c (NoticeRearmParams.concerned_none bad), State.dequeued_finish]
    · rw [event, State.noticeRearm_of_concerned (s.dequeued rest) c (NoticeRearmParams.concerned_eq named) hx]
      rfl

end Sys2Proof.Machine

/-! DATAPATH_RESET and its phases. Proof of O49. -/

namespace Sys2Proof.Machine

section
variable {s : State} {c : Command}

theorem State.resetInExecution_iff : s.resetInExecution = true ↔ ∃ c p, s.mu.executing = some ⟨c, p⟩
    ∧ (p = .abandoning ∨ p = .phase3Due ∨ (∃ aborted, p = .cutting aborted) ∨ (∃ aborted, p = .phase4Due aborted)
      ∨ ∃ r, p = .resetDone r) := by
  unfold State.resetInExecution
  cases s.mu.executing with
  | none => simp
  | some x =>
    obtain ⟨c, p⟩ := x
    cases p <;> simp [Progress.ofReset]

theorem Trunk.bundleOnWire_iff {t : Trunk} :
    t.bundleOnWire = true ↔ ∃ l mode carried bytes, t.outbound = some (.bundle l mode carried bytes) := by
  unfold Trunk.bundleOnWire
  split
  · rename_i l mode carried bytes wire
    exact iff_of_true rfl ⟨l, mode, carried, bytes, wire⟩
  · rename_i free
    refine iff_of_false Bool.false_ne_true ?_
    rintro ⟨l, mode, carried, bytes, wire⟩
    exact free l mode carried bytes wire

theorem Trunk.sendingBundle_none_iff {t : Trunk} :
    t.sendingBundle none = true ↔ ∃ l carried bytes, t.outbound = some (.bundle l .sending carried bytes) := by
  unfold Trunk.sendingBundle
  split
  · rename_i l carried bytes wire
    exact iff_of_true rfl ⟨l, carried, bytes, wire⟩
  · rename_i free
    refine iff_of_false Bool.false_ne_true ?_
    rintro ⟨l, carried, bytes, wire⟩
    exact free l carried bytes wire

theorem Mu.setProgress_of_executing {m : Mu} {p : Progress} (h : m.executing = some ⟨c, p⟩) (q : Progress) :
    m.setProgress q = { m with executing := some ⟨c, q⟩ } := by
  unfold Mu.setProgress
  rw [h]
  rfl

/-! ## Phases 1 and 2 (R22, R72, R180) -/

theorem Port.resetStart_eq (q : Port) : q.resetStart = { q with
    resetMark := true
    complete := []
    reception := if q.accepting then some .spent else q.reception
    fifoHigh := q.fifoHigh && decide (1024 < (q.taken.getD []).length)
    counters := { q.counters with
      resetDiscards := satAdd q.counters.resetDiscards (q.complete.length + (if q.accepting then 1 else 0)) } } := by
  unfold Port.resetStart
  rw [q.discardFrames_eq]
  rfl

theorem State.datapathReset_of_idle (h : s.classifier.frame = none) (a : Unit) : s.datapathReset c a =
    { s with ports := s.ports.map Port.resetStart, mu := { s.mu with executing := some ⟨c, .phase3Due⟩ } } := by
  unfold State.datapathReset
  rw [h]
  rfl

theorem State.datapathReset_of_working (h : s.classifier.frame ≠ none) (a : Unit) : s.datapathReset c a =
    { s with
      ports := s.ports.map Port.resetStart, classifier := { s.classifier with abandon := true }
      mu := { s.mu with executing := some ⟨c, .abandoning⟩ } } := by
  unfold State.datapathReset
  split
  · exact absurd ‹_› h
  · rfl

/-! ## Phase 3 (R163, R180) -/

theorem State.cutFrame_of_other (h : ∀ l carried bytes, s.trunk.outbound ≠ some (.bundle l .sending carried bytes)) :
    s.cutFrame = s := by
  unfold State.cutFrame
  split
  · exact absurd ‹_› (h _ _ _)
  · rfl

theorem State.cutFrame_mu (s : State) : s.cutFrame.mu = s.mu := s.cutFrame_keeps.mu rfl

section
variable (due : s.mu.executing = some ⟨c, .phase3Due⟩)
include due

theorem State.phase3_of_free (h : s.trunk.bundleOnWire = false) :
    s.phase3 = { s with mu := { s.mu with executing := some ⟨c, .phase4Due false⟩ } } := by
  have uncut : s.cutFrame = s := State.cutFrame_of_other fun l carried bytes wire => by
    rw [Trunk.bundleOnWire_iff.mpr ⟨l, .sending, carried, bytes, wire⟩] at h
    cases h
  unfold State.phase3
  rw [due]
  dsimp only
  rw [uncut, Mu.setProgress_of_executing due, h]
  rfl

theorem State.phase3_of_bundle (h : s.trunk.bundleOnWire = true) : s.phase3 =
    { s.cutFrame with mu := { s.mu with executing := some ⟨c, .cutting (s.trunk.sendingBundle none)⟩ } } := by
  unfold State.phase3
  rw [due]
  dsimp only
  rw [State.cutFrame_mu, Mu.setProgress_of_executing due, if_pos h]

end

/-! ## Phases 4 to 7 (R143, R181) -/

/-- A state with lanes changed and cells freed, and nothing else. -/
def State.LanesFreed (s t : State) : Prop :=
  ∃ lanes free held, t = { s with lanes := lanes, pool := { s.pool with free := free, held := held } }

theorem State.LanesFreed.refl (s : State) : s.LanesFreed s := ⟨_, _, _, rfl⟩

theorem State.LanesFreed.trans {t u : State} (h : s.LanesFreed t) (h' : t.LanesFreed u) : s.LanesFreed u := by
  obtain ⟨_, _, _, rfl⟩ := h
  obtain ⟨lanes, free, held, rfl⟩ := h'
  exact ⟨lanes, free, held, rfl⟩

theorem State.LanesFreed.trunk {t : State} (h : s.LanesFreed t) : t.trunk = s.trunk := by
  obtain ⟨_, _, _, rfl⟩ := h
  rfl

theorem State.lanesFreed_setLane (s : State) (l : LaneId) (x : Lane) : s.LanesFreed (s.setLane l x) := ⟨_, _, _, rfl⟩

theorem State.lanesFreed_freeCells (s : State) (n : Nat) : s.LanesFreed (s.freeCells n) := by
  unfold State.freeCells
  split
  · exact .refl s
  · exact ⟨_, _, _, rfl⟩

theorem State.lanesFreed_discard (free : s.trunk.bundleOnWire = false) (l : LaneId) (b : Bundle) : s.LanesFreed (s.discard l b) := by
  rw [State.discard_of_offWire fun mode q bytes wire => by
    rw [Trunk.bundleOnWire_iff.mpr ⟨l, mode, .retained q, bytes, wire⟩] at free
    cases free]
  exact s.lanesFreed_freeCells _

/-- A fold of steps that each leave the trunk and change lanes and cells alone. -/
theorem State.lanesFreed_foldl {α : Type} {f : State → α → State}
    (each : ∀ s : State, s.trunk.bundleOnWire = false → ∀ x, s.LanesFreed (f s x)) (xs : List α) (s : State)
    (free : s.trunk.bundleOnWire = false) : s.LanesFreed (xs.foldl f s) := by
  induction xs generalizing s with
  | nil => exact .refl s
  | cons x xs ih =>
    have first := each s free x
    exact first.trans (ih _ (by rw [first.trunk]; exact free))

theorem State.lanesFreed_disableLane (free : s.trunk.bundleOnWire = false) (l : LaneId) : s.LanesFreed (s.disableLane l) :=
  (State.lanesFreed_foldl (fun _ free b => State.lanesFreed_discard free l b) _ s free).trans (State.lanesFreed_setLane ..)

theorem State.lanesFreed_disableLanes (free : s.trunk.bundleOnWire = false) : s.LanesFreed s.disableLanes :=
  State.lanesFreed_foldl (fun _ free l => State.lanesFreed_disableLane free l) _ s free

theorem State.foldl_disableLane_lane (s : State) (ls : List LaneId) (k : LaneId) :
    (ls.foldl State.disableLane s).lane k = if k ∈ ls then (s.lane k).disabled else s.lane k := by
  induction ls generalizing s with
  | nil => rfl
  | cons l ls ih =>
    rw [List.foldl_cons, ih, State.disableLane_lane]
    by_cases same : k = l
    · subst same
      rw [if_pos rfl, if_pos List.mem_cons_self]
      exact ite_self _
    · rw [if_neg same]
      exact if_congr ⟨List.mem_cons_of_mem l, fun h => (List.mem_cons.mp h).resolve_left same⟩ rfl rfl

theorem State.mem_lanesInService (s : State) (l : LaneId) : l ∈ s.lanesInService ↔ (s.lane l).ldu.state ≠ .disabled := by
  simp [State.lanesInService]

theorem State.disableLanes_lane_eq (s : State) (l : LaneId) :
    s.disableLanes.lane l = if (s.lane l).ldu.state = .disabled then s.lane l else (s.lane l).disabled := by
  unfold State.disableLanes
  rw [State.foldl_disableLane_lane, if_congr (s.mem_lanesInService l) rfl rfl]
  exact ite_not ..

theorem State.phase4_of_free {aborted : Bool} (due : s.mu.executing = some ⟨c, .phase4Due aborted⟩) (free : s.trunk.bundleOnWire = false) :
    s.phase4 = { s with
      lanes := s.disableLanes.lanes, ports := s.ports.map Port.resetEnd, streams := s.streams.clearDynamic
      pool := { s.pool with free := 4096, held := false }
      mu := { s.mu with executing := some ⟨c, .resetDone ⟨c.seq, c.code, .ok, false,
        encFlag aborted ++ encCount s.lanesInService.length⟩⟩ } } := by
  obtain ⟨lanes, cells, held, disabled⟩ := State.lanesFreed_disableLanes free
  unfold State.phase4
  rw [due]
  dsimp only
  rw [disabled]
  refine congrArg (fun m : Mu => { s with
    lanes := lanes, ports := s.ports.map Port.resetEnd, streams := s.streams.clearDynamic
    pool := { s.pool with free := 4096, held := false }, mu := m }) ?_
  exact Mu.setProgress_of_executing due _

theorem StreamTable.clearDynamic_slot (t : StreamTable) (n : StreamNo) : t.clearDynamic.slot n = { t.slot n with
    entry := (t.slot n).entry.map fun e => { e with lastTimestamp := none, decimationCount := 0 } } := by
  simp [StreamTable.clearDynamic, StreamTable.slot]

end

/-- Settles O49: the beginning, phase 3 by what is on the wire, and phases 4 to 7 in one event. -/
theorem datapathResetGoesThroughItsPhases : Obligations.DatapathResetGoesThroughItsPhases := by
  refine ⟨fun s => ⟨State.resetInExecution_iff, Trunk.bundleOnWire_iff⟩, fun s c rest hb he params => ?_,
    fun s c running due => ?_, fun s c aborted running due free => ?_⟩
  · have event := exec_datapathReset_begins (a := ()) hb he (by rw [params]; rfl)
    refine ⟨s.ports.map Port.resetStart, fun idle => ?_, fun working => ?_, fun p => ?_⟩
    · rw [event, State.datapathReset_of_idle (s := s.dequeued rest) (by exact idle)]
      rfl
    · rw [event, State.datapathReset_of_working (s := s.dequeued rest) (by exact working)]
      rfl
    · exact (State.port_map Port.resetStart p).trans (s.port p).resetStart_eq
  · rw [exec_resetPhase3, running_of_resetN _ running]
    refine ⟨fun none => ?_, fun l carried bytes wire => ?_, fun l carried bytes wire => ?_⟩
    · rw [State.phase3_of_free due]
      refine Bool.eq_false_iff.mpr fun h => ?_
      obtain ⟨l, mode, carried, bytes, wire⟩ := Trunk.bundleOnWire_iff.mp h
      exact none l mode carried bytes wire
    · have unsent : ∀ l carried bytes, s.trunk.outbound ≠ some (.bundle l .sending carried bytes) := by simp [wire]
      have quiet : s.trunk.sendingBundle none = false := Bool.eq_false_iff.mpr fun h => by
        obtain ⟨l, carried, bytes, sending⟩ := Trunk.sendingBundle_none_iff.mp h
        exact unsent l carried bytes sending
      rw [State.phase3_of_bundle due (Trunk.bundleOnWire_iff.mpr ⟨l, _, _, _, wire⟩), State.cutFrame_of_other unsent, quiet]
    · rw [State.phase3_of_bundle due (Trunk.bundleOnWire_iff.mpr ⟨l, _, _, _, wire⟩), State.cutFrame_of_sending wire,
        Trunk.sendingBundle_none_iff.mpr ⟨l, carried, bytes, wire⟩]
      rfl
  · refine ⟨s.disableLanes.lanes, s.ports.map Port.resetEnd, s.streams.clearDynamic, s.lanesInService.length, ?_, rfl,
      s.disableLanes_lane_eq, fun p => State.port_map Port.resetEnd p, rfl, rfl, fun n => ?_⟩
    · rw [exec_resetPhase4, running_of_resetN _ running, State.phase4_of_free due free]
    · rw [s.streams.clearDynamic_slot n]
      exact ⟨rfl, rfl⟩

end Sys2Proof.Machine
